-- ==== Sys2Proof/Word.lean ====
section
/-! DEFINITION. The two kinds of value the machine moves (00_scope.md R8): bytes and 16-bit words.
Their `+` and `-` are Lean's own on bit vectors, which wrap as R9 says. -/

namespace Sys2Proof

/-- A byte: an unsigned value of 8 bits, bit 0 the least significant (00_scope.md R8). -/
abbrev Byte := BitVec 8

/-- A word: an unsigned value of 16 bits; every address is one (00_scope.md R6, R8). -/
abbrev Word := BitVec 16

end Sys2Proof
end

