-- ==== Sys2Proof/Config.lean ====
section
/-! DEFINITION. The parameters of the hardware (00_scope.md R7), which a model takes as arguments. -/

namespace Sys2Proof

/-- Where construction takes the first PC from (00_scope.md R7 `START_MODE`; 70_reset_and_hazards.md R261). -/
inductive StartMode where
  /-- PC is `CODE_START`. -/
  | fixedStart
  /-- PC is the word at `RESET_VECTOR`. -/
  | vector
deriving DecidableEq, Repr

/-- What a push at SP = 0x00 or a pop at SP = 0xFF does (00_scope.md R7 `STACK_POLICY`; 20_memory.md R50, R51). -/
inductive StackPolicy where
  /-- It is the fault `StackExhaustion`. -/
  | fatal
  /-- SP wraps within its eight bits. -/
  | wrap
deriving DecidableEq, Repr

/-- The configurable parameters (00_scope.md R7). They never change while the machine runs; `State.cfg` carries
them because `exec` and `step` take no other argument (log entry 1). -/
structure Config where
  /-- `CODE_START`. The spec gives it no value. -/
  codeStart : Word
  /-- `START_MODE`. -/
  startMode : StartMode
  /-- `RESET_VECTOR`, read only when `START_MODE = Vector`. -/
  resetVector : Word
  /-- `BRK_VECTOR`, where BRK reads its target. -/
  brkVector : Word
  /-- The high byte of `STACK_BASE`, which is a multiple of 256 (20_memory.md R49). -/
  stackPage : Byte
  /-- `STACK_POLICY`. -/
  stackPolicy : StackPolicy
  /-- `JMP_INDIRECT_PAGE_WRAP`. -/
  jmpIndirectPageWrap : Bool
deriving DecidableEq, Repr

/-- `STACK_BASE` (00_scope.md R7; 20_memory.md R49). -/
def Config.stackBase (cfg : Config) : Word := cfg.stackPage ++ (0x00 : Byte)

/-- The defaults of 00_scope.md R7. DESIGN CHOICE (log entry 2, unsafe): the spec leaves `CODE_START` open and
gives no default; 0x0600 is the address its examples use. -/
def Config.default : Config where
  codeStart := 0x0600
  startMode := .fixedStart
  resetVector := 0xFFFC
  brkVector := 0xFFFE
  stackPage := 0x01
  stackPolicy := .fatal
  jmpIndirectPageWrap := false

end Sys2Proof
end

