-- ==== Sys2Proof/Syntax.lean ====
section
/-! DEFINITION. The instructions: one constructor for each of the 151 rows of spec/opcode_table.json
(30_encoding.md R65, R69), with its operand byte or its operand word (R60, R62).
The suffix of a constructor names the addressing mode: Acc accumulator, Imm immediate, Zp zero page, ZpX and ZpY
zero page indexed, Abs absolute, AbsX and AbsY absolute indexed, Ind indirect, IndX `(zp,X)`, IndY `(zp),Y`; a
mnemonic with a single form has none. -/

namespace Sys2Proof

/-- An instruction with its operand as it stands in the instruction stream: nothing (formats F1), one byte (F2),
or a little-endian word (F3) (30_encoding.md R60). -/
inductive Instr where
  -- Loads and stores (42_load_store.md)
  /-- `LDA #v` (0xA9), load accumulator, R120. -/
  | ldaImm (v : Byte)
  /-- `LDA b` (0xA5), load accumulator, R120. -/
  | ldaZp (b : Byte)
  /-- `LDA b,X` (0xB5), load accumulator, R120. -/
  | ldaZpX (b : Byte)
  /-- `LDA w` (0xAD), load accumulator, R120. -/
  | ldaAbs (w : Word)
  /-- `LDA w,X` (0xBD), load accumulator, R120. -/
  | ldaAbsX (w : Word)
  /-- `LDA w,Y` (0xB9), load accumulator, R120. -/
  | ldaAbsY (w : Word)
  /-- `LDA (b,X)` (0xA1), load accumulator, R120. -/
  | ldaIndX (b : Byte)
  /-- `LDA (b),Y` (0xB1), load accumulator, R120. -/
  | ldaIndY (b : Byte)
  /-- `LDX #v` (0xA2), load X, R121. -/
  | ldxImm (v : Byte)
  /-- `LDX b` (0xA6), load X, R121. -/
  | ldxZp (b : Byte)
  /-- `LDX b,Y` (0xB6), load X, R121. -/
  | ldxZpY (b : Byte)
  /-- `LDX w` (0xAE), load X, R121. -/
  | ldxAbs (w : Word)
  /-- `LDX w,Y` (0xBE), load X, R121. -/
  | ldxAbsY (w : Word)
  /-- `LDY #v` (0xA0), load Y, R122. -/
  | ldyImm (v : Byte)
  /-- `LDY b` (0xA4), load Y, R122. -/
  | ldyZp (b : Byte)
  /-- `LDY b,X` (0xB4), load Y, R122. -/
  | ldyZpX (b : Byte)
  /-- `LDY w` (0xAC), load Y, R122. -/
  | ldyAbs (w : Word)
  /-- `LDY w,X` (0xBC), load Y, R122. -/
  | ldyAbsX (w : Word)
  /-- `STA b` (0x85), store accumulator, R123. -/
  | staZp (b : Byte)
  /-- `STA b,X` (0x95), store accumulator, R123. -/
  | staZpX (b : Byte)
  /-- `STA w` (0x8D), store accumulator, R123. -/
  | staAbs (w : Word)
  /-- `STA w,X` (0x9D), store accumulator, R123. -/
  | staAbsX (w : Word)
  /-- `STA w,Y` (0x99), store accumulator, R123. -/
  | staAbsY (w : Word)
  /-- `STA (b,X)` (0x81), store accumulator, R123. -/
  | staIndX (b : Byte)
  /-- `STA (b),Y` (0x91), store accumulator, R123. -/
  | staIndY (b : Byte)
  /-- `STX b` (0x86), store X, R124. -/
  | stxZp (b : Byte)
  /-- `STX b,Y` (0x96), store X, R124. -/
  | stxZpY (b : Byte)
  /-- `STX w` (0x8E), store X, R124. -/
  | stxAbs (w : Word)
  /-- `STY b` (0x84), store Y, R125. -/
  | styZp (b : Byte)
  /-- `STY b,X` (0x94), store Y, R125. -/
  | styZpX (b : Byte)
  /-- `STY w` (0x8C), store Y, R125. -/
  | styAbs (w : Word)
  -- Arithmetic, logic, compare, increment and decrement (43_arith_logic.md)
  /-- `ADC #v` (0x69), add with carry, R140. -/
  | adcImm (v : Byte)
  /-- `ADC b` (0x65), add with carry, R140. -/
  | adcZp (b : Byte)
  /-- `ADC b,X` (0x75), add with carry, R140. -/
  | adcZpX (b : Byte)
  /-- `ADC w` (0x6D), add with carry, R140. -/
  | adcAbs (w : Word)
  /-- `ADC w,X` (0x7D), add with carry, R140. -/
  | adcAbsX (w : Word)
  /-- `ADC w,Y` (0x79), add with carry, R140. -/
  | adcAbsY (w : Word)
  /-- `ADC (b,X)` (0x61), add with carry, R140. -/
  | adcIndX (b : Byte)
  /-- `ADC (b),Y` (0x71), add with carry, R140. -/
  | adcIndY (b : Byte)
  /-- `SBC #v` (0xE9), subtract with borrow, R141. -/
  | sbcImm (v : Byte)
  /-- `SBC b` (0xE5), subtract with borrow, R141. -/
  | sbcZp (b : Byte)
  /-- `SBC b,X` (0xF5), subtract with borrow, R141. -/
  | sbcZpX (b : Byte)
  /-- `SBC w` (0xED), subtract with borrow, R141. -/
  | sbcAbs (w : Word)
  /-- `SBC w,X` (0xFD), subtract with borrow, R141. -/
  | sbcAbsX (w : Word)
  /-- `SBC w,Y` (0xF9), subtract with borrow, R141. -/
  | sbcAbsY (w : Word)
  /-- `SBC (b,X)` (0xE1), subtract with borrow, R141. -/
  | sbcIndX (b : Byte)
  /-- `SBC (b),Y` (0xF1), subtract with borrow, R141. -/
  | sbcIndY (b : Byte)
  /-- `AND #v` (0x29), and with accumulator, R142. -/
  | andImm (v : Byte)
  /-- `AND b` (0x25), and with accumulator, R142. -/
  | andZp (b : Byte)
  /-- `AND b,X` (0x35), and with accumulator, R142. -/
  | andZpX (b : Byte)
  /-- `AND w` (0x2D), and with accumulator, R142. -/
  | andAbs (w : Word)
  /-- `AND w,X` (0x3D), and with accumulator, R142. -/
  | andAbsX (w : Word)
  /-- `AND w,Y` (0x39), and with accumulator, R142. -/
  | andAbsY (w : Word)
  /-- `AND (b,X)` (0x21), and with accumulator, R142. -/
  | andIndX (b : Byte)
  /-- `AND (b),Y` (0x31), and with accumulator, R142. -/
  | andIndY (b : Byte)
  /-- `ORA #v` (0x09), or with accumulator, R143. -/
  | oraImm (v : Byte)
  /-- `ORA b` (0x05), or with accumulator, R143. -/
  | oraZp (b : Byte)
  /-- `ORA b,X` (0x15), or with accumulator, R143. -/
  | oraZpX (b : Byte)
  /-- `ORA w` (0x0D), or with accumulator, R143. -/
  | oraAbs (w : Word)
  /-- `ORA w,X` (0x1D), or with accumulator, R143. -/
  | oraAbsX (w : Word)
  /-- `ORA w,Y` (0x19), or with accumulator, R143. -/
  | oraAbsY (w : Word)
  /-- `ORA (b,X)` (0x01), or with accumulator, R143. -/
  | oraIndX (b : Byte)
  /-- `ORA (b),Y` (0x11), or with accumulator, R143. -/
  | oraIndY (b : Byte)
  /-- `EOR #v` (0x49), exclusive or with accumulator, R144. -/
  | eorImm (v : Byte)
  /-- `EOR b` (0x45), exclusive or with accumulator, R144. -/
  | eorZp (b : Byte)
  /-- `EOR b,X` (0x55), exclusive or with accumulator, R144. -/
  | eorZpX (b : Byte)
  /-- `EOR w` (0x4D), exclusive or with accumulator, R144. -/
  | eorAbs (w : Word)
  /-- `EOR w,X` (0x5D), exclusive or with accumulator, R144. -/
  | eorAbsX (w : Word)
  /-- `EOR w,Y` (0x59), exclusive or with accumulator, R144. -/
  | eorAbsY (w : Word)
  /-- `EOR (b,X)` (0x41), exclusive or with accumulator, R144. -/
  | eorIndX (b : Byte)
  /-- `EOR (b),Y` (0x51), exclusive or with accumulator, R144. -/
  | eorIndY (b : Byte)
  /-- `BIT b` (0x24), test bits, R145. -/
  | bitZp (b : Byte)
  /-- `BIT w` (0x2C), test bits, R145. -/
  | bitAbs (w : Word)
  /-- `CMP #v` (0xC9), compare with accumulator, R146. -/
  | cmpImm (v : Byte)
  /-- `CMP b` (0xC5), compare with accumulator, R146. -/
  | cmpZp (b : Byte)
  /-- `CMP b,X` (0xD5), compare with accumulator, R146. -/
  | cmpZpX (b : Byte)
  /-- `CMP w` (0xCD), compare with accumulator, R146. -/
  | cmpAbs (w : Word)
  /-- `CMP w,X` (0xDD), compare with accumulator, R146. -/
  | cmpAbsX (w : Word)
  /-- `CMP w,Y` (0xD9), compare with accumulator, R146. -/
  | cmpAbsY (w : Word)
  /-- `CMP (b,X)` (0xC1), compare with accumulator, R146. -/
  | cmpIndX (b : Byte)
  /-- `CMP (b),Y` (0xD1), compare with accumulator, R146. -/
  | cmpIndY (b : Byte)
  /-- `CPX #v` (0xE0), compare with X, R147. -/
  | cpxImm (v : Byte)
  /-- `CPX b` (0xE4), compare with X, R147. -/
  | cpxZp (b : Byte)
  /-- `CPX w` (0xEC), compare with X, R147. -/
  | cpxAbs (w : Word)
  /-- `CPY #v` (0xC0), compare with Y, R148. -/
  | cpyImm (v : Byte)
  /-- `CPY b` (0xC4), compare with Y, R148. -/
  | cpyZp (b : Byte)
  /-- `CPY w` (0xCC), compare with Y, R148. -/
  | cpyAbs (w : Word)
  /-- `INC b` (0xE6), increment memory, R149. -/
  | incZp (b : Byte)
  /-- `INC b,X` (0xF6), increment memory, R149. -/
  | incZpX (b : Byte)
  /-- `INC w` (0xEE), increment memory, R149. -/
  | incAbs (w : Word)
  /-- `INC w,X` (0xFE), increment memory, R149. -/
  | incAbsX (w : Word)
  /-- `DEC b` (0xC6), decrement memory, R150. -/
  | decZp (b : Byte)
  /-- `DEC b,X` (0xD6), decrement memory, R150. -/
  | decZpX (b : Byte)
  /-- `DEC w` (0xCE), decrement memory, R150. -/
  | decAbs (w : Word)
  /-- `DEC w,X` (0xDE), decrement memory, R150. -/
  | decAbsX (w : Word)
  /-- `INX` (0xE8), increment X, R151. -/
  | inx
  /-- `INY` (0xC8), increment Y, R152. -/
  | iny
  /-- `DEX` (0xCA), decrement X, R153. -/
  | dex
  /-- `DEY` (0x88), decrement Y, R154. -/
  | dey
  -- Shifts and rotates (44_shift_rotate.md)
  /-- `ASL A` (0x0A), arithmetic shift left, R170. -/
  | aslAcc
  /-- `ASL b` (0x06), arithmetic shift left, R170. -/
  | aslZp (b : Byte)
  /-- `ASL b,X` (0x16), arithmetic shift left, R170. -/
  | aslZpX (b : Byte)
  /-- `ASL w` (0x0E), arithmetic shift left, R170. -/
  | aslAbs (w : Word)
  /-- `ASL w,X` (0x1E), arithmetic shift left, R170. -/
  | aslAbsX (w : Word)
  /-- `LSR A` (0x4A), logical shift right, R171. -/
  | lsrAcc
  /-- `LSR b` (0x46), logical shift right, R171. -/
  | lsrZp (b : Byte)
  /-- `LSR b,X` (0x56), logical shift right, R171. -/
  | lsrZpX (b : Byte)
  /-- `LSR w` (0x4E), logical shift right, R171. -/
  | lsrAbs (w : Word)
  /-- `LSR w,X` (0x5E), logical shift right, R171. -/
  | lsrAbsX (w : Word)
  /-- `ROL A` (0x2A), rotate left through carry, R172. -/
  | rolAcc
  /-- `ROL b` (0x26), rotate left through carry, R172. -/
  | rolZp (b : Byte)
  /-- `ROL b,X` (0x36), rotate left through carry, R172. -/
  | rolZpX (b : Byte)
  /-- `ROL w` (0x2E), rotate left through carry, R172. -/
  | rolAbs (w : Word)
  /-- `ROL w,X` (0x3E), rotate left through carry, R172. -/
  | rolAbsX (w : Word)
  /-- `ROR A` (0x6A), rotate right through carry, R173. -/
  | rorAcc
  /-- `ROR b` (0x66), rotate right through carry, R173. -/
  | rorZp (b : Byte)
  /-- `ROR b,X` (0x76), rotate right through carry, R173. -/
  | rorZpX (b : Byte)
  /-- `ROR w` (0x6E), rotate right through carry, R173. -/
  | rorAbs (w : Word)
  /-- `ROR w,X` (0x7E), rotate right through carry, R173. -/
  | rorAbsX (w : Word)
  -- Control transfer (45_control.md)
  /-- `BCC off` (0x90), branch if carry clear, R181. -/
  | bcc (off : Byte)
  /-- `BCS off` (0xB0), branch if carry set, R182. -/
  | bcs (off : Byte)
  /-- `BEQ off` (0xF0), branch if zero set, R183. -/
  | beq (off : Byte)
  /-- `BNE off` (0xD0), branch if zero clear, R184. -/
  | bne (off : Byte)
  /-- `BMI off` (0x30), branch if negative set, R185. -/
  | bmi (off : Byte)
  /-- `BPL off` (0x10), branch if negative clear, R186. -/
  | bpl (off : Byte)
  /-- `BVC off` (0x50), branch if overflow clear, R187. -/
  | bvc (off : Byte)
  /-- `BVS off` (0x70), branch if overflow set, R188. -/
  | bvs (off : Byte)
  /-- `JMP w` (0x4C), jump, R189. -/
  | jmpAbs (w : Word)
  /-- `JMP (w)` (0x6C), jump, R189. -/
  | jmpInd (w : Word)
  /-- `JSR w` (0x20), jump to subroutine, R190. -/
  | jsr (w : Word)
  /-- `RTS` (0x60), return from subroutine, R191. -/
  | rts
  /-- `BRK` (0x00), software interrupt, R193. -/
  | brk
  /-- `RTI` (0x40), return from interrupt, R194. -/
  | rti
  -- Stack instructions (46_stack.md)
  /-- `PHA` (0x48), push accumulator, R200. -/
  | pha
  /-- `PHP` (0x08), push processor status, R201. -/
  | php
  /-- `PLA` (0x68), pull accumulator, R202. -/
  | pla
  /-- `PLP` (0x28), pull processor status, R203. -/
  | plp
  -- Register transfers (47_transfer.md)
  /-- `TAX` (0xAA), transfer A to X, R210. -/
  | tax
  /-- `TAY` (0xA8), transfer A to Y, R211. -/
  | tay
  /-- `TXA` (0x8A), transfer X to A, R212. -/
  | txa
  /-- `TYA` (0x98), transfer Y to A, R213. -/
  | tya
  /-- `TSX` (0xBA), transfer SP to X, R214. -/
  | tsx
  /-- `TXS` (0x9A), transfer X to SP, R215. -/
  | txs
  -- Flag set and clear, no-op (48_flags_nop.md)
  /-- `CLC` (0x18), clear carry, R220. -/
  | clc
  /-- `SEC` (0x38), set carry, R221. -/
  | sec
  /-- `CLI` (0x58), clear interrupt disable, R222. -/
  | cli
  /-- `SEI` (0x78), set interrupt disable, R223. -/
  | sei
  /-- `CLD` (0xD8), clear decimal mode, R224. -/
  | cld
  /-- `SED` (0xF8), set decimal mode, R225. -/
  | sed
  /-- `CLV` (0xB8), clear overflow, R226. -/
  | clv
  /-- `NOP` (0xEA), no operation, R227. -/
  | nop
deriving DecidableEq, Repr

end Sys2Proof
end

