-- ==== Sys2Proof/WellFormed.lean ====
section
/-! DEFINITION. The pair of a mnemonic and an addressing mode that an instruction is (00_scope.md glossary,
"Instruction"), its operand, and which pairs and operand sizes are well formed (30_encoding.md R61, R69). -/

namespace Sys2Proof

/-- The 13 addressing modes (40_addressing.md R81 to R93). -/
inductive Mode where
  | implicit
  | accumulator
  | immediate
  | zeroPage
  | zeroPageX
  | zeroPageY
  | relative
  | absolute
  | absoluteX
  | absoluteY
  | indirect
  | indexedIndirect
  | indirectIndexed
deriving DecidableEq, Repr

/-- The 56 mnemonics (30_encoding.md R69). -/
inductive Op where
  | lda | ldx | ldy | sta | stx | sty
  | adc | sbc | and | ora | eor | bit | cmp | cpx | cpy | inc | dec | inx | iny | dex | dey
  | asl | lsr | rol | ror
  | bcc | bcs | beq | bne | bmi | bpl | bvc | bvs | jmp | jsr | rts | brk | rti
  | pha | php | pla | plp
  | tax | tay | txa | tya | tsx | txs
  | clc | sec | cli | sei | cld | sed | clv | nop
deriving DecidableEq, Repr

/-- An addressing mode with the operand bytes the instruction carries for it (30_encoding.md R62): a byte, a word
assembled from two bytes, or nothing. -/
inductive Operand where
  | implicit
  | accumulator
  | immediate (v : Byte)
  | zeroPage (b : Byte)
  | zeroPageX (b : Byte)
  | zeroPageY (b : Byte)
  | relative (off : Byte)
  | absolute (w : Word)
  | absoluteX (w : Word)
  | absoluteY (w : Word)
  | indirect (w : Word)
  | indexedIndirect (b : Byte)
  | indirectIndexed (b : Byte)
deriving DecidableEq, Repr

/-- The mode of an operand. -/
def Operand.mode : Operand → Mode
  | .implicit => .implicit
  | .accumulator => .accumulator
  | .immediate _ => .immediate
  | .zeroPage _ => .zeroPage
  | .zeroPageX _ => .zeroPageX
  | .zeroPageY _ => .zeroPageY
  | .relative _ => .relative
  | .absolute _ => .absolute
  | .absoluteX _ => .absoluteX
  | .absoluteY _ => .absoluteY
  | .indirect _ => .indirect
  | .indexedIndirect _ => .indexedIndirect
  | .indirectIndexed _ => .indirectIndexed

/-- How many bytes an operand carries. -/
def Operand.size : Operand → Nat
  | .implicit => 0
  | .accumulator => 0
  | .immediate _ => 1
  | .zeroPage _ => 1
  | .zeroPageX _ => 1
  | .zeroPageY _ => 1
  | .relative _ => 1
  | .absolute _ => 2
  | .absoluteX _ => 2
  | .absoluteY _ => 2
  | .indirect _ => 2
  | .indexedIndirect _ => 1
  | .indirectIndexed _ => 1

/-- How many operand bytes a mode takes: the length of 30_encoding.md R61 less the opcode byte. -/
def Mode.operandCount : Mode → Nat
  | .implicit | .accumulator => 0
  | .immediate | .zeroPage | .zeroPageX | .zeroPageY | .relative | .indexedIndirect | .indirectIndexed => 1
  | .absolute | .absoluteX | .absoluteY | .indirect => 2

/-- The mnemonic of an instruction. -/
def Instr.op : Instr → Op
  | .ldaImm _ => .lda
  | .ldaZp _ => .lda
  | .ldaZpX _ => .lda
  | .ldaAbs _ => .lda
  | .ldaAbsX _ => .lda
  | .ldaAbsY _ => .lda
  | .ldaIndX _ => .lda
  | .ldaIndY _ => .lda
  | .ldxImm _ => .ldx
  | .ldxZp _ => .ldx
  | .ldxZpY _ => .ldx
  | .ldxAbs _ => .ldx
  | .ldxAbsY _ => .ldx
  | .ldyImm _ => .ldy
  | .ldyZp _ => .ldy
  | .ldyZpX _ => .ldy
  | .ldyAbs _ => .ldy
  | .ldyAbsX _ => .ldy
  | .staZp _ => .sta
  | .staZpX _ => .sta
  | .staAbs _ => .sta
  | .staAbsX _ => .sta
  | .staAbsY _ => .sta
  | .staIndX _ => .sta
  | .staIndY _ => .sta
  | .stxZp _ => .stx
  | .stxZpY _ => .stx
  | .stxAbs _ => .stx
  | .styZp _ => .sty
  | .styZpX _ => .sty
  | .styAbs _ => .sty
  | .adcImm _ => .adc
  | .adcZp _ => .adc
  | .adcZpX _ => .adc
  | .adcAbs _ => .adc
  | .adcAbsX _ => .adc
  | .adcAbsY _ => .adc
  | .adcIndX _ => .adc
  | .adcIndY _ => .adc
  | .sbcImm _ => .sbc
  | .sbcZp _ => .sbc
  | .sbcZpX _ => .sbc
  | .sbcAbs _ => .sbc
  | .sbcAbsX _ => .sbc
  | .sbcAbsY _ => .sbc
  | .sbcIndX _ => .sbc
  | .sbcIndY _ => .sbc
  | .andImm _ => .and
  | .andZp _ => .and
  | .andZpX _ => .and
  | .andAbs _ => .and
  | .andAbsX _ => .and
  | .andAbsY _ => .and
  | .andIndX _ => .and
  | .andIndY _ => .and
  | .oraImm _ => .ora
  | .oraZp _ => .ora
  | .oraZpX _ => .ora
  | .oraAbs _ => .ora
  | .oraAbsX _ => .ora
  | .oraAbsY _ => .ora
  | .oraIndX _ => .ora
  | .oraIndY _ => .ora
  | .eorImm _ => .eor
  | .eorZp _ => .eor
  | .eorZpX _ => .eor
  | .eorAbs _ => .eor
  | .eorAbsX _ => .eor
  | .eorAbsY _ => .eor
  | .eorIndX _ => .eor
  | .eorIndY _ => .eor
  | .bitZp _ => .bit
  | .bitAbs _ => .bit
  | .cmpImm _ => .cmp
  | .cmpZp _ => .cmp
  | .cmpZpX _ => .cmp
  | .cmpAbs _ => .cmp
  | .cmpAbsX _ => .cmp
  | .cmpAbsY _ => .cmp
  | .cmpIndX _ => .cmp
  | .cmpIndY _ => .cmp
  | .cpxImm _ => .cpx
  | .cpxZp _ => .cpx
  | .cpxAbs _ => .cpx
  | .cpyImm _ => .cpy
  | .cpyZp _ => .cpy
  | .cpyAbs _ => .cpy
  | .incZp _ => .inc
  | .incZpX _ => .inc
  | .incAbs _ => .inc
  | .incAbsX _ => .inc
  | .decZp _ => .dec
  | .decZpX _ => .dec
  | .decAbs _ => .dec
  | .decAbsX _ => .dec
  | .inx => .inx
  | .iny => .iny
  | .dex => .dex
  | .dey => .dey
  | .aslAcc => .asl
  | .aslZp _ => .asl
  | .aslZpX _ => .asl
  | .aslAbs _ => .asl
  | .aslAbsX _ => .asl
  | .lsrAcc => .lsr
  | .lsrZp _ => .lsr
  | .lsrZpX _ => .lsr
  | .lsrAbs _ => .lsr
  | .lsrAbsX _ => .lsr
  | .rolAcc => .rol
  | .rolZp _ => .rol
  | .rolZpX _ => .rol
  | .rolAbs _ => .rol
  | .rolAbsX _ => .rol
  | .rorAcc => .ror
  | .rorZp _ => .ror
  | .rorZpX _ => .ror
  | .rorAbs _ => .ror
  | .rorAbsX _ => .ror
  | .bcc _ => .bcc
  | .bcs _ => .bcs
  | .beq _ => .beq
  | .bne _ => .bne
  | .bmi _ => .bmi
  | .bpl _ => .bpl
  | .bvc _ => .bvc
  | .bvs _ => .bvs
  | .jmpAbs _ => .jmp
  | .jmpInd _ => .jmp
  | .jsr _ => .jsr
  | .rts => .rts
  | .brk => .brk
  | .rti => .rti
  | .pha => .pha
  | .php => .php
  | .pla => .pla
  | .plp => .plp
  | .tax => .tax
  | .tay => .tay
  | .txa => .txa
  | .tya => .tya
  | .tsx => .tsx
  | .txs => .txs
  | .clc => .clc
  | .sec => .sec
  | .cli => .cli
  | .sei => .sei
  | .cld => .cld
  | .sed => .sed
  | .clv => .clv
  | .nop => .nop

/-- The operand of an instruction. -/
def Instr.operand : Instr → Operand
  | .ldaImm v => .immediate v
  | .ldaZp b => .zeroPage b
  | .ldaZpX b => .zeroPageX b
  | .ldaAbs w => .absolute w
  | .ldaAbsX w => .absoluteX w
  | .ldaAbsY w => .absoluteY w
  | .ldaIndX b => .indexedIndirect b
  | .ldaIndY b => .indirectIndexed b
  | .ldxImm v => .immediate v
  | .ldxZp b => .zeroPage b
  | .ldxZpY b => .zeroPageY b
  | .ldxAbs w => .absolute w
  | .ldxAbsY w => .absoluteY w
  | .ldyImm v => .immediate v
  | .ldyZp b => .zeroPage b
  | .ldyZpX b => .zeroPageX b
  | .ldyAbs w => .absolute w
  | .ldyAbsX w => .absoluteX w
  | .staZp b => .zeroPage b
  | .staZpX b => .zeroPageX b
  | .staAbs w => .absolute w
  | .staAbsX w => .absoluteX w
  | .staAbsY w => .absoluteY w
  | .staIndX b => .indexedIndirect b
  | .staIndY b => .indirectIndexed b
  | .stxZp b => .zeroPage b
  | .stxZpY b => .zeroPageY b
  | .stxAbs w => .absolute w
  | .styZp b => .zeroPage b
  | .styZpX b => .zeroPageX b
  | .styAbs w => .absolute w
  | .adcImm v => .immediate v
  | .adcZp b => .zeroPage b
  | .adcZpX b => .zeroPageX b
  | .adcAbs w => .absolute w
  | .adcAbsX w => .absoluteX w
  | .adcAbsY w => .absoluteY w
  | .adcIndX b => .indexedIndirect b
  | .adcIndY b => .indirectIndexed b
  | .sbcImm v => .immediate v
  | .sbcZp b => .zeroPage b
  | .sbcZpX b => .zeroPageX b
  | .sbcAbs w => .absolute w
  | .sbcAbsX w => .absoluteX w
  | .sbcAbsY w => .absoluteY w
  | .sbcIndX b => .indexedIndirect b
  | .sbcIndY b => .indirectIndexed b
  | .andImm v => .immediate v
  | .andZp b => .zeroPage b
  | .andZpX b => .zeroPageX b
  | .andAbs w => .absolute w
  | .andAbsX w => .absoluteX w
  | .andAbsY w => .absoluteY w
  | .andIndX b => .indexedIndirect b
  | .andIndY b => .indirectIndexed b
  | .oraImm v => .immediate v
  | .oraZp b => .zeroPage b
  | .oraZpX b => .zeroPageX b
  | .oraAbs w => .absolute w
  | .oraAbsX w => .absoluteX w
  | .oraAbsY w => .absoluteY w
  | .oraIndX b => .indexedIndirect b
  | .oraIndY b => .indirectIndexed b
  | .eorImm v => .immediate v
  | .eorZp b => .zeroPage b
  | .eorZpX b => .zeroPageX b
  | .eorAbs w => .absolute w
  | .eorAbsX w => .absoluteX w
  | .eorAbsY w => .absoluteY w
  | .eorIndX b => .indexedIndirect b
  | .eorIndY b => .indirectIndexed b
  | .bitZp b => .zeroPage b
  | .bitAbs w => .absolute w
  | .cmpImm v => .immediate v
  | .cmpZp b => .zeroPage b
  | .cmpZpX b => .zeroPageX b
  | .cmpAbs w => .absolute w
  | .cmpAbsX w => .absoluteX w
  | .cmpAbsY w => .absoluteY w
  | .cmpIndX b => .indexedIndirect b
  | .cmpIndY b => .indirectIndexed b
  | .cpxImm v => .immediate v
  | .cpxZp b => .zeroPage b
  | .cpxAbs w => .absolute w
  | .cpyImm v => .immediate v
  | .cpyZp b => .zeroPage b
  | .cpyAbs w => .absolute w
  | .incZp b => .zeroPage b
  | .incZpX b => .zeroPageX b
  | .incAbs w => .absolute w
  | .incAbsX w => .absoluteX w
  | .decZp b => .zeroPage b
  | .decZpX b => .zeroPageX b
  | .decAbs w => .absolute w
  | .decAbsX w => .absoluteX w
  | .inx => .implicit
  | .iny => .implicit
  | .dex => .implicit
  | .dey => .implicit
  | .aslAcc => .accumulator
  | .aslZp b => .zeroPage b
  | .aslZpX b => .zeroPageX b
  | .aslAbs w => .absolute w
  | .aslAbsX w => .absoluteX w
  | .lsrAcc => .accumulator
  | .lsrZp b => .zeroPage b
  | .lsrZpX b => .zeroPageX b
  | .lsrAbs w => .absolute w
  | .lsrAbsX w => .absoluteX w
  | .rolAcc => .accumulator
  | .rolZp b => .zeroPage b
  | .rolZpX b => .zeroPageX b
  | .rolAbs w => .absolute w
  | .rolAbsX w => .absoluteX w
  | .rorAcc => .accumulator
  | .rorZp b => .zeroPage b
  | .rorZpX b => .zeroPageX b
  | .rorAbs w => .absolute w
  | .rorAbsX w => .absoluteX w
  | .bcc off => .relative off
  | .bcs off => .relative off
  | .beq off => .relative off
  | .bne off => .relative off
  | .bmi off => .relative off
  | .bpl off => .relative off
  | .bvc off => .relative off
  | .bvs off => .relative off
  | .jmpAbs w => .absolute w
  | .jmpInd w => .indirect w
  | .jsr w => .absolute w
  | .rts => .implicit
  | .brk => .implicit
  | .rti => .implicit
  | .pha => .implicit
  | .php => .implicit
  | .pla => .implicit
  | .plp => .implicit
  | .tax => .implicit
  | .tay => .implicit
  | .txa => .implicit
  | .tya => .implicit
  | .tsx => .implicit
  | .txs => .implicit
  | .clc => .implicit
  | .sec => .implicit
  | .cli => .implicit
  | .sei => .implicit
  | .cld => .implicit
  | .sed => .implicit
  | .clv => .implicit
  | .nop => .implicit

/-- The addressing mode of an instruction. -/
def Instr.mode (i : Instr) : Mode := i.operand.mode

/-- The modes each mnemonic has (the rows of 30_encoding.md R69). -/
def Op.modes : Op → List Mode
  | .lda => [.immediate, .zeroPage, .zeroPageX, .absolute, .absoluteX, .absoluteY, .indexedIndirect, .indirectIndexed]
  | .ldx => [.immediate, .zeroPage, .zeroPageY, .absolute, .absoluteY]
  | .ldy => [.immediate, .zeroPage, .zeroPageX, .absolute, .absoluteX]
  | .sta => [.zeroPage, .zeroPageX, .absolute, .absoluteX, .absoluteY, .indexedIndirect, .indirectIndexed]
  | .stx => [.zeroPage, .zeroPageY, .absolute]
  | .sty => [.zeroPage, .zeroPageX, .absolute]
  | .adc => [.immediate, .zeroPage, .zeroPageX, .absolute, .absoluteX, .absoluteY, .indexedIndirect, .indirectIndexed]
  | .sbc => [.immediate, .zeroPage, .zeroPageX, .absolute, .absoluteX, .absoluteY, .indexedIndirect, .indirectIndexed]
  | .and => [.immediate, .zeroPage, .zeroPageX, .absolute, .absoluteX, .absoluteY, .indexedIndirect, .indirectIndexed]
  | .ora => [.immediate, .zeroPage, .zeroPageX, .absolute, .absoluteX, .absoluteY, .indexedIndirect, .indirectIndexed]
  | .eor => [.immediate, .zeroPage, .zeroPageX, .absolute, .absoluteX, .absoluteY, .indexedIndirect, .indirectIndexed]
  | .bit => [.zeroPage, .absolute]
  | .cmp => [.immediate, .zeroPage, .zeroPageX, .absolute, .absoluteX, .absoluteY, .indexedIndirect, .indirectIndexed]
  | .cpx => [.immediate, .zeroPage, .absolute]
  | .cpy => [.immediate, .zeroPage, .absolute]
  | .inc => [.zeroPage, .zeroPageX, .absolute, .absoluteX]
  | .dec => [.zeroPage, .zeroPageX, .absolute, .absoluteX]
  | .inx => [.implicit]
  | .iny => [.implicit]
  | .dex => [.implicit]
  | .dey => [.implicit]
  | .asl => [.accumulator, .zeroPage, .zeroPageX, .absolute, .absoluteX]
  | .lsr => [.accumulator, .zeroPage, .zeroPageX, .absolute, .absoluteX]
  | .rol => [.accumulator, .zeroPage, .zeroPageX, .absolute, .absoluteX]
  | .ror => [.accumulator, .zeroPage, .zeroPageX, .absolute, .absoluteX]
  | .bcc => [.relative]
  | .bcs => [.relative]
  | .beq => [.relative]
  | .bne => [.relative]
  | .bmi => [.relative]
  | .bpl => [.relative]
  | .bvc => [.relative]
  | .bvs => [.relative]
  | .jmp => [.absolute, .indirect]
  | .jsr => [.absolute]
  | .rts => [.implicit]
  | .brk => [.implicit]
  | .rti => [.implicit]
  | .pha => [.implicit]
  | .php => [.implicit]
  | .pla => [.implicit]
  | .plp => [.implicit]
  | .tax => [.implicit]
  | .tay => [.implicit]
  | .txa => [.implicit]
  | .tya => [.implicit]
  | .tsx => [.implicit]
  | .txs => [.implicit]
  | .clc => [.implicit]
  | .sec => [.implicit]
  | .cli => [.implicit]
  | .sei => [.implicit]
  | .cld => [.implicit]
  | .sed => [.implicit]
  | .clv => [.implicit]
  | .nop => [.implicit]

/-- The checks on a mnemonic, a mode and a number of operand bytes: the pair is a row of R69, and the bytes are as
many as R61 gives the mode. No operand value is ill formed (30_encoding.md R67). -/
def wellFormedParts (op : Op) (mode : Mode) (operandBytes : Nat) : Bool :=
  op.modes.contains mode && operandBytes == mode.operandCount

/-- An instruction is well formed when its parts are. -/
def Instr.wf (i : Instr) : Bool := wellFormedParts i.op i.mode i.operand.size

end Sys2Proof
end

