-- ==== Sys2Proof/Machine/State.lean ====
section
/-! DEFINITION. The whole state of the machine (10_state.md), the reasons a step can stop, and the state right after
reset (10_state.md R33). -/

namespace Sys2Proof.Machine

/-- The status register P: eight independently addressable flags (10_state.md R25). -/
structure Status where
  /-- Carry. -/
  c : Bool
  /-- Zero. -/
  z : Bool
  /-- InterruptDisable: stored, masks nothing (60_exceptions.md R245). -/
  i : Bool
  /-- DecimalMode: stored, no effect on arithmetic (41_alu.md R104). -/
  d : Bool
  /-- Break: a stored flag here (90_conflicts.md C3), read by no instruction. -/
  b : Bool
  /-- Unused: no meaning, read by no instruction. -/
  u : Bool
  /-- Overflow. -/
  v : Bool
  /-- Negative. -/
  n : Bool
deriving DecidableEq, Repr

/-- The two stack accesses (20_memory.md R50, R51). -/
inductive StackAccess where
  | push
  | pop
deriving DecidableEq, Repr

/-- The kind of a fault with the information recorded for it (60_exceptions.md R242). -/
inductive FaultCause where
  /-- Code 1: the opcode byte has no entry in the decode table. -/
  | decodeFailure (opcode : Byte)
  /-- Codes 2 (push) and 3 (pop): the stack pointer is at its bound under `STACK_POLICY = Fatal`. -/
  | stackExhaustion (access : StackAccess) (sp : Byte)
  /-- Code 4: an address was asked of a mode that has none. -/
  | resolverContract (mode : Mode)
deriving DecidableEq, Repr

/-- The registers at the moment of a fault (60_exceptions.md R241). -/
structure Snapshot where
  a : Byte
  x : Byte
  y : Byte
  sp : Byte
  pc : Word
  /-- `PByte(P)`. -/
  p : Byte
deriving DecidableEq, Repr

/-- The fault record the host gets (60_exceptions.md R241). -/
structure FaultRecord where
  /-- The kind and its information. -/
  cause : FaultCause
  /-- The address of the opcode byte of the instruction that faulted. -/
  address : Word
  /-- The registers at the moment of the raise. -/
  snapshot : Snapshot
deriving DecidableEq, Repr

/-- The run state (10_state.md R31). `halted` is entered only by a fault and never left. -/
inductive RunState where
  | running
  | halted (record : FaultRecord)
deriving DecidableEq, Repr

/-- Memory: the bytes that differ from what an unlisted address reads as, by strictly rising address (`Memory.wf` in
Machine/Ops.lean says so). -/
abbrev Memory := List Host.Cell

/-- The state of the machine (10_state.md R20 to R31) and, as `cfg`, the parameters it runs under (log entry 1). -/
structure State where
  /-- The accumulator. -/
  a : Byte
  /-- Index register X. -/
  x : Byte
  /-- Index register Y. -/
  y : Byte
  /-- The stack pointer: an index within the stack page (10_state.md R24). -/
  sp : Byte
  /-- The program counter: between instructions, the address of the next opcode byte (10_state.md R22). -/
  pc : Word
  /-- The status register. -/
  p : Status
  /-- The 65,536 bytes of memory (10_state.md R30). -/
  mem : Memory
  /-- The run state. -/
  run : RunState
  /-- The parameters: the model's own field, which no step changes. -/
  cfg : Config
deriving DecidableEq, Repr

/-- Why a step faults (60_exceptions.md R242). Each carries the record the host gets (R241) and the state the fault
leaves (R243), whose run state is `Halted` of that record. All are safe: the spec's own fatal errors, after which no
instruction executes. -/
inductive Fault where
  /-- Raised by `step` when the byte at PC is one of the 105 illegal ones. Safe. -/
  | decodeFailure (record : FaultRecord) (left : State)
  /-- Raised by a push (PHA, PHP, JSR, BRK) at SP = 0x00 under `STACK_POLICY = Fatal`. Safe. -/
  | stackExhaustionPush (record : FaultRecord) (left : State)
  /-- Raised by a pop (PLA, PLP, RTS, RTI) at SP = 0xFF under `STACK_POLICY = Fatal`. Safe. -/
  | stackExhaustionPop (record : FaultRecord) (left : State)
  /-- Raised by the resolver when an address is asked of a mode that has none; no instruction does (40_addressing.md
  R96). Safe. -/
  | resolverContract (record : FaultRecord) (left : State)
deriving DecidableEq, Repr

/-- Why a step is refused. -/
inductive Refusal where
  /-- Raised by `exec` for an instruction without a meaning in this model; there is none, so nothing raises it. Safe. -/
  | notModelled (mnemonic : String)
deriving DecidableEq, Repr

/-- The outcome of a step or of a part of one. -/
abbrev Out := Host.Outcome State Fault Refusal

/-- The machine right after reset: the values of 10_state.md R33 under the default parameters, with nothing listed in
memory. DESIGN CHOICE, unsafe: PC is `CODE_START`, which the spec leaves open (log entry 2), and the image is all zero
(log entry 3). `Machine.construct` is the same for any parameters and image. -/
def State.reset : State where
  a := 0x00
  x := 0x00
  y := 0x00
  sp := 0xFF
  pc := Config.default.codeStart
  p := { c := false, z := false, i := false, d := false, b := false, u := false, v := false, n := false }
  mem := []
  run := .running
  cfg := Config.default

end Sys2Proof.Machine
end

