-- ==== Sys2Proof/Machine/Flags.lean ====
section
/-! DEFINITION. The ALU: pure functions of bytes and a carry giving a result and flag outputs (41_alu.md R100 to R113), and
writing flag outputs into P. A `+` or `-` inside a function is on unbounded integers and the result is reduced at the end.
No function reads `P.D` (R104). -/

namespace Sys2Proof.Machine

/-- `z` of `ZN(v)`: the value is 0 (41_alu.md R100). -/
def isZero (v : Byte) : Bool := v == 0

/-- `n` of `ZN(v)`: bit 7 of the value (41_alu.md R100). -/
def isNegative (v : Byte) : Bool := v.getLsbD 7

/-- P with Z and N written from a value (41_alu.md R100). -/
def Status.withZN (p : Status) (v : Byte) : Status := { p with z := isZero v, n := isNegative v }

/-- The outputs of an addition or subtraction. -/
structure Sum where
  r : Byte
  c : Bool
  v : Bool
deriving DecidableEq, Repr

/-- The outputs of a shift or rotate. -/
structure Shifted where
  r : Byte
  c : Bool
deriving DecidableEq, Repr

/-- The outputs of a comparison. -/
structure Compared where
  c : Bool
  z : Bool
  n : Bool
deriving DecidableEq, Repr

/-- The outputs of a bit test. -/
structure BitTested where
  z : Bool
  v : Bool
  n : Bool
deriving DecidableEq, Repr

/-- `AddC(a, b, cin)` (41_alu.md R102). -/
def addC (a b : Byte) (cin : Bool) : Sum :=
  let s := a.toNat + b.toNat + cin.toNat
  let r := BitVec.ofNat 8 s
  { r := r, c := decide (256 ≤ s), v := ((a ^^^ r) &&& (b ^^^ r) &&& 0x80) != 0 }

/-- `SubC(a, b, cin)`: the addition of the complement (41_alu.md R103). -/
def subC (a b : Byte) (cin : Bool) : Sum := addC a (b ^^^ 0xFF) cin

/-- `Cmp(r, m)`: unsigned, no overflow output, the carry not read (41_alu.md R105). -/
def compareBytes (r m : Byte) : Compared :=
  { c := decide (m.toNat ≤ r.toNat), z := isZero (r - m), n := isNegative (r - m) }

/-- `BitTest(a, m)`: V and N are bits 6 and 7 of the operand (41_alu.md R107). -/
def bitTest (a m : Byte) : BitTested :=
  { z := isZero (a &&& m), v := m.getLsbD 6, n := m.getLsbD 7 }

/-- `Asl(v)` (41_alu.md R108). -/
def asl (v : Byte) : Shifted := { r := v <<< 1, c := v.getLsbD 7 }

/-- `Lsr(v)` (41_alu.md R109). -/
def lsr (v : Byte) : Shifted := { r := v >>> 1, c := v.getLsbD 0 }

/-- `Rol(v, cin)`: the incoming carry becomes bit 0 (41_alu.md R110). -/
def rol (v : Byte) (cin : Bool) : Shifted :=
  { r := (v <<< 1) ||| (if cin then 0x01 else 0x00), c := v.getLsbD 7 }

/-- `Ror(v, cin)`: the incoming carry becomes bit 7 (41_alu.md R111). -/
def ror (v : Byte) (cin : Bool) : Shifted :=
  { r := (if cin then 0x80 else 0x00) ||| (v >>> 1), c := v.getLsbD 0 }

/-- `Inc(v)` (41_alu.md R112). -/
def inc (v : Byte) : Byte := v + 1

/-- `Dec(v)` (41_alu.md R112). -/
def dec (v : Byte) : Byte := v - 1

/-- P with the flags of an addition or subtraction: C, V, and Z and N of the result (43_arith_logic.md R140, R141). -/
def Status.withSum (p : Status) (o : Sum) : Status := { p.withZN o.r with c := o.c, v := o.v }

/-- P with the flags of a comparison: C, Z, N (43_arith_logic.md R146). -/
def Status.withCompared (p : Status) (o : Compared) : Status := { p with c := o.c, z := o.z, n := o.n }

/-- P with the flags of a bit test: Z, V, N (43_arith_logic.md R145). -/
def Status.withBitTested (p : Status) (o : BitTested) : Status := { p with z := o.z, v := o.v, n := o.n }

/-- P with the flags of a shift or rotate: C, and Z and N of the result (44_shift_rotate.md R170). -/
def Status.withShifted (p : Status) (o : Shifted) : Status := { p.withZN o.r with c := o.c }

end Sys2Proof.Machine
end

