-- ==== Sys2Proof/Decode.lean ====
section
/-! DEFINITION. The decoder (30_encoding.md R64 to R66), and after it the encoder, written from the other table of
the spec (R69). The byte-order helpers that both use stand first. -/

namespace Sys2Proof

/-- `(h << 8) | l` (00_scope.md R8). -/
def wordOf (h l : Byte) : Word := h ++ l

/-- `hi(w) = w[15:8]` (00_scope.md R8). -/
def hi (w : Word) : Byte := w.extractLsb' 8 8

/-- `lo(w) = w[7:0]` (00_scope.md R8). -/
def lo (w : Word) : Byte := w.extractLsb' 0 8

/-- What the opcode map has at a byte: nothing, or an instruction of one of the three formats of 30_encoding.md R60. -/
inductive Entry where
  /-- A byte with no legal meaning (R66). -/
  | undef
  /-- Format F1: no operand byte. -/
  | f1 (i : Instr)
  /-- Format F2: one operand byte. -/
  | f2 (make : Byte → Instr)
  /-- Format F3: a little-endian operand word. -/
  | f3 (make : Word → Instr)

/-- Row 0x of the opcode map, columns x0 to xF (30_encoding.md R65). -/
def opcodeRow0 : List Entry :=
  [.f1 .brk, .f2 .oraIndX, .undef, .undef,
   .undef, .f2 .oraZp, .f2 .aslZp, .undef,
   .f1 .php, .f2 .oraImm, .f1 .aslAcc, .undef,
   .undef, .f3 .oraAbs, .f3 .aslAbs, .undef]

/-- Row 1x of the opcode map, columns x0 to xF (30_encoding.md R65). -/
def opcodeRow1 : List Entry :=
  [.f2 .bpl, .f2 .oraIndY, .undef, .undef,
   .undef, .f2 .oraZpX, .f2 .aslZpX, .undef,
   .f1 .clc, .f3 .oraAbsY, .undef, .undef,
   .undef, .f3 .oraAbsX, .f3 .aslAbsX, .undef]

/-- Row 2x of the opcode map, columns x0 to xF (30_encoding.md R65). -/
def opcodeRow2 : List Entry :=
  [.f3 .jsr, .f2 .andIndX, .undef, .undef,
   .f2 .bitZp, .f2 .andZp, .f2 .rolZp, .undef,
   .f1 .plp, .f2 .andImm, .f1 .rolAcc, .undef,
   .f3 .bitAbs, .f3 .andAbs, .f3 .rolAbs, .undef]

/-- Row 3x of the opcode map, columns x0 to xF (30_encoding.md R65). -/
def opcodeRow3 : List Entry :=
  [.f2 .bmi, .f2 .andIndY, .undef, .undef,
   .undef, .f2 .andZpX, .f2 .rolZpX, .undef,
   .f1 .sec, .f3 .andAbsY, .undef, .undef,
   .undef, .f3 .andAbsX, .f3 .rolAbsX, .undef]

/-- Row 4x of the opcode map, columns x0 to xF (30_encoding.md R65). -/
def opcodeRow4 : List Entry :=
  [.f1 .rti, .f2 .eorIndX, .undef, .undef,
   .undef, .f2 .eorZp, .f2 .lsrZp, .undef,
   .f1 .pha, .f2 .eorImm, .f1 .lsrAcc, .undef,
   .f3 .jmpAbs, .f3 .eorAbs, .f3 .lsrAbs, .undef]

/-- Row 5x of the opcode map, columns x0 to xF (30_encoding.md R65). -/
def opcodeRow5 : List Entry :=
  [.f2 .bvc, .f2 .eorIndY, .undef, .undef,
   .undef, .f2 .eorZpX, .f2 .lsrZpX, .undef,
   .f1 .cli, .f3 .eorAbsY, .undef, .undef,
   .undef, .f3 .eorAbsX, .f3 .lsrAbsX, .undef]

/-- Row 6x of the opcode map, columns x0 to xF (30_encoding.md R65). -/
def opcodeRow6 : List Entry :=
  [.f1 .rts, .f2 .adcIndX, .undef, .undef,
   .undef, .f2 .adcZp, .f2 .rorZp, .undef,
   .f1 .pla, .f2 .adcImm, .f1 .rorAcc, .undef,
   .f3 .jmpInd, .f3 .adcAbs, .f3 .rorAbs, .undef]

/-- Row 7x of the opcode map, columns x0 to xF (30_encoding.md R65). -/
def opcodeRow7 : List Entry :=
  [.f2 .bvs, .f2 .adcIndY, .undef, .undef,
   .undef, .f2 .adcZpX, .f2 .rorZpX, .undef,
   .f1 .sei, .f3 .adcAbsY, .undef, .undef,
   .undef, .f3 .adcAbsX, .f3 .rorAbsX, .undef]

/-- Row 8x of the opcode map, columns x0 to xF (30_encoding.md R65). -/
def opcodeRow8 : List Entry :=
  [.undef, .f2 .staIndX, .undef, .undef,
   .f2 .styZp, .f2 .staZp, .f2 .stxZp, .undef,
   .f1 .dey, .undef, .f1 .txa, .undef,
   .f3 .styAbs, .f3 .staAbs, .f3 .stxAbs, .undef]

/-- Row 9x of the opcode map, columns x0 to xF (30_encoding.md R65). -/
def opcodeRow9 : List Entry :=
  [.f2 .bcc, .f2 .staIndY, .undef, .undef,
   .f2 .styZpX, .f2 .staZpX, .f2 .stxZpY, .undef,
   .f1 .tya, .f3 .staAbsY, .f1 .txs, .undef,
   .undef, .f3 .staAbsX, .undef, .undef]

/-- Row Ax of the opcode map, columns x0 to xF (30_encoding.md R65). -/
def opcodeRowA : List Entry :=
  [.f2 .ldyImm, .f2 .ldaIndX, .f2 .ldxImm, .undef,
   .f2 .ldyZp, .f2 .ldaZp, .f2 .ldxZp, .undef,
   .f1 .tay, .f2 .ldaImm, .f1 .tax, .undef,
   .f3 .ldyAbs, .f3 .ldaAbs, .f3 .ldxAbs, .undef]

/-- Row Bx of the opcode map, columns x0 to xF (30_encoding.md R65). -/
def opcodeRowB : List Entry :=
  [.f2 .bcs, .f2 .ldaIndY, .undef, .undef,
   .f2 .ldyZpX, .f2 .ldaZpX, .f2 .ldxZpY, .undef,
   .f1 .clv, .f3 .ldaAbsY, .f1 .tsx, .undef,
   .f3 .ldyAbsX, .f3 .ldaAbsX, .f3 .ldxAbsY, .undef]

/-- Row Cx of the opcode map, columns x0 to xF (30_encoding.md R65). -/
def opcodeRowC : List Entry :=
  [.f2 .cpyImm, .f2 .cmpIndX, .undef, .undef,
   .f2 .cpyZp, .f2 .cmpZp, .f2 .decZp, .undef,
   .f1 .iny, .f2 .cmpImm, .f1 .dex, .undef,
   .f3 .cpyAbs, .f3 .cmpAbs, .f3 .decAbs, .undef]

/-- Row Dx of the opcode map, columns x0 to xF (30_encoding.md R65). -/
def opcodeRowD : List Entry :=
  [.f2 .bne, .f2 .cmpIndY, .undef, .undef,
   .undef, .f2 .cmpZpX, .f2 .decZpX, .undef,
   .f1 .cld, .f3 .cmpAbsY, .undef, .undef,
   .undef, .f3 .cmpAbsX, .f3 .decAbsX, .undef]

/-- Row Ex of the opcode map, columns x0 to xF (30_encoding.md R65). -/
def opcodeRowE : List Entry :=
  [.f2 .cpxImm, .f2 .sbcIndX, .undef, .undef,
   .f2 .cpxZp, .f2 .sbcZp, .f2 .incZp, .undef,
   .f1 .inx, .f2 .sbcImm, .f1 .nop, .undef,
   .f3 .cpxAbs, .f3 .sbcAbs, .f3 .incAbs, .undef]

/-- Row Fx of the opcode map, columns x0 to xF (30_encoding.md R65). -/
def opcodeRowF : List Entry :=
  [.f2 .beq, .f2 .sbcIndY, .undef, .undef,
   .undef, .f2 .sbcZpX, .f2 .incZpX, .undef,
   .f1 .sed, .f3 .sbcAbsY, .undef, .undef,
   .undef, .f3 .sbcAbsX, .f3 .incAbsX, .undef]

/-- The opcode map (30_encoding.md R65): the row of a high nibble. -/
def opcodeMap : List (List Entry) :=
  [opcodeRow0, opcodeRow1, opcodeRow2, opcodeRow3, opcodeRow4, opcodeRow5, opcodeRow6, opcodeRow7,
   opcodeRow8, opcodeRow9, opcodeRowA, opcodeRowB, opcodeRowC, opcodeRowD, opcodeRowE, opcodeRowF]

/-- The entry of an opcode byte: row the high nibble, column the low nibble (30_encoding.md R65). -/
def opcodeEntry (b : Byte) : Entry :=
  ((opcodeMap.getD (b.toNat / 16) []).getD (b.toNat % 16) .undef)

/-- `Decode(b)`: the mnemonic and mode of an opcode byte, or nothing (30_encoding.md R64). The operand plays no part. -/
def decodeOpcode (b : Byte) : Option (Op × Mode) :=
  match opcodeEntry b with
  | .undef => none
  | .f1 i => some (i.op, i.mode)
  | .f2 make => some ((make 0).op, (make 0).mode)
  | .f3 make => some ((make 0).op, (make 0).mode)

/-- Why bytes are no instruction. -/
inductive Reject where
  /-- The first byte has no legal meaning (30_encoding.md R66). -/
  | illegalOpcode (b : Byte)
  /-- The bytes end before the instruction does; `step` always hands over three bytes, so it never meets this. -/
  | truncated
deriving DecidableEq, Repr

/-- The instruction at the head of a list of bytes, with the bytes after it; the operand word has its low byte
first (30_encoding.md R60, R62, R64). -/
def decode : List Byte → Except Reject (Instr × List Byte)
  | [] => .error .truncated
  | b :: rest =>
    match opcodeEntry b, rest with
    | .undef, _ => .error (.illegalOpcode b)
    | .f1 i, _ => .ok (i, rest)
    | .f2 make, v :: rest => .ok (make v, rest)
    | .f2 _, [] => .error .truncated
    | .f3 make, l :: h :: rest => .ok (make (wordOf h l), rest)
    | .f3 _, _ => .error .truncated

/-- The opcode byte of an instruction (the table of 30_encoding.md R69, row by row). -/
def opcode : Instr → Byte
  | .ldaImm _ => 0xA9
  | .ldaZp _ => 0xA5
  | .ldaZpX _ => 0xB5
  | .ldaAbs _ => 0xAD
  | .ldaAbsX _ => 0xBD
  | .ldaAbsY _ => 0xB9
  | .ldaIndX _ => 0xA1
  | .ldaIndY _ => 0xB1
  | .ldxImm _ => 0xA2
  | .ldxZp _ => 0xA6
  | .ldxZpY _ => 0xB6
  | .ldxAbs _ => 0xAE
  | .ldxAbsY _ => 0xBE
  | .ldyImm _ => 0xA0
  | .ldyZp _ => 0xA4
  | .ldyZpX _ => 0xB4
  | .ldyAbs _ => 0xAC
  | .ldyAbsX _ => 0xBC
  | .staZp _ => 0x85
  | .staZpX _ => 0x95
  | .staAbs _ => 0x8D
  | .staAbsX _ => 0x9D
  | .staAbsY _ => 0x99
  | .staIndX _ => 0x81
  | .staIndY _ => 0x91
  | .stxZp _ => 0x86
  | .stxZpY _ => 0x96
  | .stxAbs _ => 0x8E
  | .styZp _ => 0x84
  | .styZpX _ => 0x94
  | .styAbs _ => 0x8C
  | .adcImm _ => 0x69
  | .adcZp _ => 0x65
  | .adcZpX _ => 0x75
  | .adcAbs _ => 0x6D
  | .adcAbsX _ => 0x7D
  | .adcAbsY _ => 0x79
  | .adcIndX _ => 0x61
  | .adcIndY _ => 0x71
  | .sbcImm _ => 0xE9
  | .sbcZp _ => 0xE5
  | .sbcZpX _ => 0xF5
  | .sbcAbs _ => 0xED
  | .sbcAbsX _ => 0xFD
  | .sbcAbsY _ => 0xF9
  | .sbcIndX _ => 0xE1
  | .sbcIndY _ => 0xF1
  | .andImm _ => 0x29
  | .andZp _ => 0x25
  | .andZpX _ => 0x35
  | .andAbs _ => 0x2D
  | .andAbsX _ => 0x3D
  | .andAbsY _ => 0x39
  | .andIndX _ => 0x21
  | .andIndY _ => 0x31
  | .oraImm _ => 0x09
  | .oraZp _ => 0x05
  | .oraZpX _ => 0x15
  | .oraAbs _ => 0x0D
  | .oraAbsX _ => 0x1D
  | .oraAbsY _ => 0x19
  | .oraIndX _ => 0x01
  | .oraIndY _ => 0x11
  | .eorImm _ => 0x49
  | .eorZp _ => 0x45
  | .eorZpX _ => 0x55
  | .eorAbs _ => 0x4D
  | .eorAbsX _ => 0x5D
  | .eorAbsY _ => 0x59
  | .eorIndX _ => 0x41
  | .eorIndY _ => 0x51
  | .bitZp _ => 0x24
  | .bitAbs _ => 0x2C
  | .cmpImm _ => 0xC9
  | .cmpZp _ => 0xC5
  | .cmpZpX _ => 0xD5
  | .cmpAbs _ => 0xCD
  | .cmpAbsX _ => 0xDD
  | .cmpAbsY _ => 0xD9
  | .cmpIndX _ => 0xC1
  | .cmpIndY _ => 0xD1
  | .cpxImm _ => 0xE0
  | .cpxZp _ => 0xE4
  | .cpxAbs _ => 0xEC
  | .cpyImm _ => 0xC0
  | .cpyZp _ => 0xC4
  | .cpyAbs _ => 0xCC
  | .incZp _ => 0xE6
  | .incZpX _ => 0xF6
  | .incAbs _ => 0xEE
  | .incAbsX _ => 0xFE
  | .decZp _ => 0xC6
  | .decZpX _ => 0xD6
  | .decAbs _ => 0xCE
  | .decAbsX _ => 0xDE
  | .inx => 0xE8
  | .iny => 0xC8
  | .dex => 0xCA
  | .dey => 0x88
  | .aslAcc => 0x0A
  | .aslZp _ => 0x06
  | .aslZpX _ => 0x16
  | .aslAbs _ => 0x0E
  | .aslAbsX _ => 0x1E
  | .lsrAcc => 0x4A
  | .lsrZp _ => 0x46
  | .lsrZpX _ => 0x56
  | .lsrAbs _ => 0x4E
  | .lsrAbsX _ => 0x5E
  | .rolAcc => 0x2A
  | .rolZp _ => 0x26
  | .rolZpX _ => 0x36
  | .rolAbs _ => 0x2E
  | .rolAbsX _ => 0x3E
  | .rorAcc => 0x6A
  | .rorZp _ => 0x66
  | .rorZpX _ => 0x76
  | .rorAbs _ => 0x6E
  | .rorAbsX _ => 0x7E
  | .bcc _ => 0x90
  | .bcs _ => 0xB0
  | .beq _ => 0xF0
  | .bne _ => 0xD0
  | .bmi _ => 0x30
  | .bpl _ => 0x10
  | .bvc _ => 0x50
  | .bvs _ => 0x70
  | .jmpAbs _ => 0x4C
  | .jmpInd _ => 0x6C
  | .jsr _ => 0x20
  | .rts => 0x60
  | .brk => 0x00
  | .rti => 0x40
  | .pha => 0x48
  | .php => 0x08
  | .pla => 0x68
  | .plp => 0x28
  | .tax => 0xAA
  | .tay => 0xA8
  | .txa => 0x8A
  | .tya => 0x98
  | .tsx => 0xBA
  | .txs => 0x9A
  | .clc => 0x18
  | .sec => 0x38
  | .cli => 0x58
  | .sei => 0x78
  | .cld => 0xD8
  | .sed => 0xF8
  | .clv => 0xB8
  | .nop => 0xEA

/-- The operand bytes of an operand, low byte of a word first (30_encoding.md R60). -/
def operandBytes : Operand → List Byte
  | .implicit | .accumulator => []
  | .immediate b | .zeroPage b | .zeroPageX b | .zeroPageY b | .relative b
  | .indexedIndirect b | .indirectIndexed b => [b]
  | .absolute w | .absoluteX w | .absoluteY w | .indirect w => [lo w, hi w]

/-- The bytes of an instruction (30_encoding.md R60, R69). -/
def encode (i : Instr) : List Byte := opcode i :: operandBytes i.operand

/-- Byte `k` of an instruction written as one number whose bits 0 to 7 are the first byte; bits from `nbits` on are 0. -/
def tableByte (nbits w k : Nat) : Byte := BitVec.ofNat 8 (w % 2 ^ nbits / 2 ^ (8 * k))

/-- The three bytes of an instruction written as one number: the longest instruction has three (30_encoding.md R61). -/
def tableBytes (nbits w : Nat) : List Byte := [tableByte nbits w 0, tableByte nbits w 1, tableByte nbits w 2]

/-- The instruction the decoder reads from an instruction whose bits are `w`, numbered as spec/opcode_table.json
numbers them; bits from `nbits` on are 0. -/
def decodeTableWord (nbits w : Nat) : Option Instr :=
  match decode (tableBytes nbits w) with
  | .ok (i, _) => some i
  | .error _ => none

end Sys2Proof
end

