-- ==== Sys2Proof/Machine/Ops.lean ====
section
/-! DEFINITION. The named operations over memory and registers: the memory port (20_memory.md R40 to R43), the byte form of
P (10_state.md R26), raising a fault (60_exceptions.md R240, R241), the stack unit (20_memory.md R49 to R52), and taking
and returning from the software interrupt (45_control.md R193, R194). -/

namespace Sys2Proof.Machine

/-! ### Writing one register -/

/-- `A <- v`. -/
def State.setA (s : State) (v : Byte) : State := { s with a := v }

/-- `X <- v`. -/
def State.setX (s : State) (v : Byte) : State := { s with x := v }

/-- `Y <- v`. -/
def State.setY (s : State) (v : Byte) : State := { s with y := v }

/-- `SP <- v`. -/
def State.setSp (s : State) (v : Byte) : State := { s with sp := v }

/-- `PC <- w`. -/
def State.setPc (s : State) (w : Word) : State := { s with pc := w }

/-- Writes all of P. -/
def State.setP (s : State) (p : Status) : State := { s with p := p }

/-- Writes all of memory. -/
def State.setMem (s : State) (m : Memory) : State := { s with mem := m }

/-- Writes the run state. -/
def State.setRun (s : State) (r : RunState) : State := { s with run := r }

/-! ### The memory port -/

/-- What a byte reads as that memory does not list. DESIGN CHOICE (log entry 3, unsafe): the spec's image gives every
byte (10_state.md R30), the interface to this model loads none, and the all-zero image is taken. -/
def unlistedByte : Byte := 0x00

/-- The byte a list of cells holds at an address. -/
def readCells : List Host.Cell → Nat → Byte
  | [], _ => unlistedByte
  | (k, v) :: rest, a => if k = a then v else readCells rest a

/-- The cells with the byte at an address set, in rising order and with no cell that reads as an unlisted one. -/
def writeCells : List Host.Cell → Nat → Byte → List Host.Cell
  | [], a, v => if v = unlistedByte then [] else [(a, v)]
  | (k, w) :: rest, a, v =>
    if a < k then (if v = unlistedByte then (k, w) :: rest else (a, v) :: (k, w) :: rest)
    else if a = k then (if v = unlistedByte then rest else (a, v) :: rest)
    else (k, w) :: writeCells rest a v

/-- `MemRead(addr, 1)` (20_memory.md R40). -/
def memRead (m : Memory) (addr : Word) : Byte := readCells m addr.toNat

/-- `MemWrite(addr, 1, v)` (20_memory.md R40). -/
def memWrite (m : Memory) (addr : Word) (v : Byte) : Memory := writeCells m addr.toNat v

/-- Addresses rise strictly from above `low`, lie in the 65,536-byte space, and no cell reads as an unlisted one. -/
def cellsWf : Nat → List Host.Cell → Bool
  | _, [] => true
  | low, (k, v) :: rest => decide (low ≤ k) && decide (k < 65536) && decide (v ≠ unlistedByte) && cellsWf (k + 1) rest

/-- The canonical form of memory, so that equal memories are equal lists. -/
def Memory.wf (m : Memory) : Bool := cellsWf 0 m

/-- `MemRead(addr, 2)`: a little-endian word, the high byte at the next address with 16-bit wrap (20_memory.md R42). -/
def memReadWord (m : Memory) (addr : Word) : Word := wordOf (memRead m (addr + 1)) (memRead m addr)

/-- `zext_16(b)` (00_scope.md R9). -/
def zext16 (b : Byte) : Word := b.setWidth 16

/-- `sext_16(b)` (00_scope.md R9). -/
def sext16 (b : Byte) : Word := b.signExtend 16

/-- `ZPRead(p, 2)`: a little-endian pointer in the zero page, the high byte's address wrapping within it (20_memory.md
R43). -/
def zpReadWord (m : Memory) (p : Byte) : Word := wordOf (memRead m (zext16 (p + 1))) (memRead m (zext16 p))

/-- The machine after `MemWrite(addr, 1, v)`. -/
def State.store (s : State) (addr : Word) (v : Byte) : State := s.setMem (memWrite s.mem addr v)

/-! ### The byte form of P -/

/-- A flag as a byte with the flag at bit `k`. -/
def flagBit (f : Bool) (k : Nat) : Byte := if f then 1 <<< k else 0

/-- `PByte(P)`: N V U B D I Z C from bit 7 to bit 0 (10_state.md R26). -/
def pByte (p : Status) : Byte :=
  flagBit p.n 7 ||| flagBit p.v 6 ||| flagBit p.u 5 ||| flagBit p.b 4 |||
  flagBit p.d 3 ||| flagBit p.i 2 ||| flagBit p.z 1 ||| flagBit p.c 0

/-- The byte that PHP and BRK push: bits 4 and 5 are 1 whatever the stored B and U (46_stack.md R201; 45_control.md
R193). -/
def pushedStatus (p : Status) : Byte := pByte p ||| 0x30

/-- `LoadP(p)`: every flag but U from its bit (46_stack.md R203). -/
def loadP (old : Status) (v : Byte) : Status where
  c := v.getLsbD 0
  z := v.getLsbD 1
  i := v.getLsbD 2
  d := v.getLsbD 3
  b := v.getLsbD 4
  u := old.u
  v := v.getLsbD 6
  n := v.getLsbD 7

/-! ### Faults -/

/-- The code of a fault (60_exceptions.md R242). -/
def FaultCause.code : FaultCause → Nat
  | .decodeFailure _ => 1
  | .stackExhaustion .push _ => 2
  | .stackExhaustion .pop _ => 3
  | .resolverContract _ => 4

/-- The registers of a state, as the fault record shows them (60_exceptions.md R241). -/
def snapshotOf (s : State) : Snapshot :=
  { a := s.a, x := s.x, y := s.y, sp := s.sp, pc := s.pc, p := pByte s.p }

/-- The fault of a record and the halted state it leaves. -/
def faultOf (r : FaultRecord) (left : State) : Fault :=
  match r.cause with
  | .decodeFailure _ => .decodeFailure r left
  | .stackExhaustion .push _ => .stackExhaustionPush r left
  | .stackExhaustion .pop _ => .stackExhaustionPop r left
  | .resolverContract _ => .resolverContract r left

/-- The record a fault gives the host. -/
def Fault.record : Fault → FaultRecord
  | .decodeFailure r _ | .stackExhaustionPush r _ | .stackExhaustionPop r _ | .resolverContract r _ => r

/-- The state a fault leaves. -/
def Fault.left : Fault → State
  | .decodeFailure _ t | .stackExhaustionPush _ t | .stackExhaustionPop _ t | .resolverContract _ t => t

/-- The record of a fault raised in state `s` by the instruction whose opcode is at `pc0` (60_exceptions.md R241). -/
def recordOf (cause : FaultCause) (pc0 : Word) (s : State) : FaultRecord :=
  { cause := cause, address := pc0, snapshot := snapshotOf s }

/-- `raise Fault(kind, info)`: the instruction ends here and the run state becomes `Halted` (60_exceptions.md R240). -/
def raise (cause : FaultCause) (pc0 : Word) (s : State) : Out :=
  .fault (faultOf (recordOf cause pc0 s) (s.setRun (.halted (recordOf cause pc0 s))))

/-! ### The stack unit -/

/-- The address of a stack byte: the page base plus the stack pointer (20_memory.md R49; 10_state.md R24). -/
def stackAddr (cfg : Config) (sp : Byte) : Word := cfg.stackBase + zext16 sp

/-- A push at this stack pointer is a fault (20_memory.md R50). -/
def pushFaults (s : State) : Bool := s.sp == 0x00 && s.cfg.stackPolicy == .fatal

/-- A pop at this stack pointer is a fault (20_memory.md R51). -/
def popFaults (s : State) : Bool := s.sp == 0xFF && s.cfg.stackPolicy == .fatal

/-- The machine after an admitted push: the byte written, then SP decremented (20_memory.md R50). -/
def State.pushed (s : State) (v : Byte) : State := (s.store (stackAddr s.cfg s.sp) v).setSp (s.sp - 1)

/-- The machine after an admitted pop: SP incremented (20_memory.md R51). -/
def State.popped (s : State) : State := s.setSp (s.sp + 1)

/-- The byte at the stack pointer, which a pop returns once SP is incremented (20_memory.md R51). -/
def State.stackByte (s : State) : Byte := memRead s.mem (stackAddr s.cfg s.sp)

/-- `Push(v)`, then `next`; the bound is checked before the write (20_memory.md R50). -/
def pushByte (pc0 : Word) (v : Byte) (s : State) (next : State → Out) : Out :=
  if pushFaults s then raise (.stackExhaustion .push s.sp) pc0 s else next (s.pushed v)

/-- `Pop()`, its byte handed to `next` (20_memory.md R51). -/
def popByte (pc0 : Word) (s : State) (next : Byte → State → Out) : Out :=
  if popFaults s then raise (.stackExhaustion .pop s.sp) pc0 s else next s.popped.stackByte s.popped

/-- `Push16(w)`: high byte first (20_memory.md R52). -/
def pushWord (pc0 : Word) (w : Word) (s : State) (next : State → Out) : Out :=
  pushByte pc0 (hi w) s fun s1 => pushByte pc0 (lo w) s1 next

/-- `Pop16()`: low byte first (20_memory.md R52). -/
def popWord (pc0 : Word) (s : State) (next : Word → State → Out) : Out :=
  popByte pc0 s fun l s1 => popByte pc0 s1 fun h s2 => next (wordOf h l) s2

/-! ### Trap entry and return -/

/-- Taking the software interrupt, from a PC that has passed the opcode byte: it pushes PC + 1 and the status with bits 4
and 5 set, sets I, and goes to the word at `BRK_VECTOR` (45_control.md R193; 60_exceptions.md R246). -/
def takeInterrupt (pc0 : Word) (s : State) : Out :=
  pushWord pc0 (s.pc + 1) s fun s1 =>
    pushByte pc0 (pushedStatus s1.p) s1 fun s2 =>
      .next ((s2.setP { s2.p with i := true }).setPc (memReadWord s2.mem s2.cfg.brkVector))

/-- Returning from it: pops the status (all but U), then PC, and adds nothing (45_control.md R194; 60_exceptions.md R247). -/
def returnFromInterrupt (pc0 : Word) (s : State) : Out :=
  popByte pc0 s fun v s1 =>
    popWord pc0 (s1.setP (loadP s1.p v)) fun w s2 => .next (s2.setPc w)

end Sys2Proof.Machine
end

