-- ==== Sys2Proof/Machine/Operands.lean ====
section
/-! DEFINITION. The addressing-mode resolver (40_addressing.md). An instruction carries its operand bytes, already fetched
(log entry 5), so the resolver's part of moving PC is to leave it at the opcode address plus the length (10_state.md R23).

A resolver function is applied to the state at the start of the instruction, whose PC is the opcode's address, and hands its
result and the state after all fetches to the rest of the instruction. -/

namespace Sys2Proof.Machine

/-- The length of an instruction by its mode (30_encoding.md R61). -/
def lengthOf : Operand → Word
  | .implicit | .accumulator => 1
  | .immediate _ | .zeroPage _ | .zeroPageX _ | .zeroPageY _ | .relative _
  | .indexedIndirect _ | .indirectIndexed _ => 2
  | .absolute _ | .absoluteX _ | .absoluteY _ | .indirect _ => 3

/-- The state once the opcode and operand bytes are fetched: PC has passed them (10_state.md R23). -/
def State.past (s : State) (o : Operand) : State := s.setPc (s.pc + lengthOf o)

/-- The pointer read of `JMP (ind)`: the high byte at `ptr +16 1`, or at the next byte of the same page (40_addressing.md
R90). -/
def readPointer (cfg : Config) (m : Memory) (ptr : Word) : Word :=
  if cfg.jmpIndirectPageWrap then wordOf (memRead m (wordOf (hi ptr) (lo ptr + 1))) (memRead m ptr)
  else memReadWord m ptr

/-- The effective address of an operand, for the modes that have one (40_addressing.md R84 to R92). -/
def effectiveAddress (o : Operand) (s : State) : Option Word :=
  match o with
  | .zeroPage b => some (zext16 b)
  | .zeroPageX b => some (zext16 (b + s.x))
  | .zeroPageY b => some (zext16 (b + s.y))
  | .absolute w => some w
  | .absoluteX w => some (w + zext16 s.x)
  | .absoluteY w => some (w + zext16 s.y)
  | .indirect w => some (readPointer s.cfg s.mem w)
  | .indexedIndirect b => some (zpReadWord s.mem (b + s.x))
  | .indirectIndexed b => some (zpReadWord s.mem b + zext16 s.y)
  | .implicit | .accumulator | .immediate _ | .relative _ => none

/-- The value of an operand, for the modes that have one (40_addressing.md R94). -/
def operandValue (o : Operand) (s : State) : Option Byte :=
  match o with
  | .immediate v => some v
  | .accumulator => some s.a
  | _ => (effectiveAddress o s).map (memRead s.mem)

/-- Where a read-modify-write instruction reads and writes (40_addressing.md R95). -/
inductive Loc where
  | regA
  | mem (ea : Word)
deriving DecidableEq, Repr

/-- The location of an operand, for the modes that have one (40_addressing.md R95). -/
def operandLoc (o : Operand) (s : State) : Option Loc :=
  match o with
  | .accumulator => some .regA
  | _ => (effectiveAddress o s).map .mem

/-- `Read(loc)` (40_addressing.md R95). -/
def State.readLoc (s : State) : Loc → Byte
  | .regA => s.a
  | .mem ea => memRead s.mem ea

/-- `Write(loc, v)` (40_addressing.md R95). -/
def State.writeLoc (s : State) (l : Loc) (v : Byte) : State :=
  match l with
  | .regA => s.setA v
  | .mem ea => s.store ea v

/-- The contract violation: an address was asked of a mode that has none (40_addressing.md R96; log entry 7). Only the
opcode byte has been fetched. -/
def contractViolation (o : Operand) (s : State) : Out := raise (.resolverContract o.mode) s.pc (s.setPc (s.pc + 1))

/-- `ResolveAddress(mode)` (40_addressing.md R80). -/
def resolveAddress (o : Operand) (s : State) (next : Word → State → Out) : Out :=
  match effectiveAddress o s with
  | some ea => next ea (s.past o)
  | none => contractViolation o s

/-- `ResolveValue(mode)` (40_addressing.md R94). -/
def resolveValue (o : Operand) (s : State) (next : Byte → State → Out) : Out :=
  match operandValue o s with
  | some v => next v (s.past o)
  | none => contractViolation o s

/-- `ResolveLocation(mode)` (40_addressing.md R95). -/
def resolveLocation (o : Operand) (s : State) (next : Loc → State → Out) : Out :=
  match operandLoc o s with
  | some l => next l (s.past o)
  | none => contractViolation o s

/-- The target of a branch: the address after the offset byte plus the signed offset (40_addressing.md R93). -/
def branchTarget (off : Byte) (after : Word) : Word := after + sext16 off

end Sys2Proof.Machine
end

