-- ==== Sys2Proof/Machine/ArithLogic.lean ====
section
/-! DEFINITION. Arithmetic, logic, compare, increment and decrement (43_arith_logic.md R140 to R154). -/

namespace Sys2Proof.Machine

/-- ADC over any operand form: A, C, V, Z, N, binary whatever D (43_arith_logic.md R140). -/
def addWithCarry (o : Operand) (s : State) : Out :=
  resolveValue o s fun m s1 =>
    .next ((s1.setA (addC s1.a m s1.p.c).r).setP (s1.p.withSum (addC s1.a m s1.p.c)))

/-- SBC over any operand form: A, C, V, Z, N, binary whatever D (43_arith_logic.md R141). -/
def subtractWithBorrow (o : Operand) (s : State) : Out :=
  resolveValue o s fun m s1 =>
    .next ((s1.setA (subC s1.a m s1.p.c).r).setP (s1.p.withSum (subC s1.a m s1.p.c)))

/-- AND, ORA, EOR over any operand form: A, Z, N (43_arith_logic.md R142 to R144; 41_alu.md R106). -/
def logic (f : Byte → Byte → Byte) (o : Operand) (s : State) : Out :=
  resolveValue o s fun m s1 => .next ((s1.setA (f s1.a m)).setP (s1.p.withZN (f s1.a m)))

/-- AND (43_arith_logic.md R142). -/
def andA (o : Operand) (s : State) : Out := logic (fun a m => a &&& m) o s

/-- ORA (43_arith_logic.md R143). -/
def orA (o : Operand) (s : State) : Out := logic (fun a m => a ||| m) o s

/-- EOR (43_arith_logic.md R144). -/
def eorA (o : Operand) (s : State) : Out := logic (fun a m => a ^^^ m) o s

/-- BIT over any operand form: Z, V, N only (43_arith_logic.md R145). -/
def testBits (o : Operand) (s : State) : Out :=
  resolveValue o s fun m s1 => .next (s1.setP (s1.p.withBitTested (bitTest s1.a m)))

/-- CMP, CPX, CPY of a register value over any operand form: C, Z, N only (43_arith_logic.md R146 to R148). -/
def compareWith (r : Byte) (o : Operand) (s : State) : Out :=
  resolveValue o s fun m s1 => .next (s1.setP (s1.p.withCompared (compareBytes r m)))

/-- CMP (43_arith_logic.md R146). -/
def compareA (o : Operand) (s : State) : Out := compareWith s.a o s

/-- CPX (43_arith_logic.md R147). -/
def compareX (o : Operand) (s : State) : Out := compareWith s.x o s

/-- CPY (43_arith_logic.md R148). -/
def compareY (o : Operand) (s : State) : Out := compareWith s.y o s

/-- INC, DEC over any operand form: the byte at the effective address, Z, N (43_arith_logic.md R149, R150). -/
def modifyByte (f : Byte → Byte) (o : Operand) (s : State) : Out :=
  resolveAddress o s fun ea s1 =>
    .next ((s1.store ea (f (memRead s1.mem ea))).setP (s1.p.withZN (f (memRead s1.mem ea))))

/-- INC (43_arith_logic.md R149). -/
def incrementByte (o : Operand) (s : State) : Out := modifyByte inc o s

/-- DEC (43_arith_logic.md R150). -/
def decrementByte (o : Operand) (s : State) : Out := modifyByte dec o s

/-- X written, with Z and N (43_arith_logic.md R151, R153; 47_transfer.md R210, R214). -/
def putX (v : Byte) (s : State) : Out := .next ((s.setX v).setP (s.p.withZN v))

/-- Y written, with Z and N (43_arith_logic.md R152, R154; 47_transfer.md R211). -/
def putY (v : Byte) (s : State) : Out := .next ((s.setY v).setP (s.p.withZN v))

/-- ADC, immediate (R140). -/
def execAdcImm (v : Byte) (s : State) : Out := addWithCarry (.immediate v) s

/-- ADC, zero page (R140). -/
def execAdcZp (b : Byte) (s : State) : Out := addWithCarry (.zeroPage b) s

/-- ADC, zero page indexed by X (R140). -/
def execAdcZpX (b : Byte) (s : State) : Out := addWithCarry (.zeroPageX b) s

/-- ADC, absolute (R140). -/
def execAdcAbs (w : Word) (s : State) : Out := addWithCarry (.absolute w) s

/-- ADC, absolute indexed by X (R140). -/
def execAdcAbsX (w : Word) (s : State) : Out := addWithCarry (.absoluteX w) s

/-- ADC, absolute indexed by Y (R140). -/
def execAdcAbsY (w : Word) (s : State) : Out := addWithCarry (.absoluteY w) s

/-- ADC, indexed indirect (R140). -/
def execAdcIndX (b : Byte) (s : State) : Out := addWithCarry (.indexedIndirect b) s

/-- ADC, indirect indexed (R140). -/
def execAdcIndY (b : Byte) (s : State) : Out := addWithCarry (.indirectIndexed b) s

/-- SBC, immediate (R141). -/
def execSbcImm (v : Byte) (s : State) : Out := subtractWithBorrow (.immediate v) s

/-- SBC, zero page (R141). -/
def execSbcZp (b : Byte) (s : State) : Out := subtractWithBorrow (.zeroPage b) s

/-- SBC, zero page indexed by X (R141). -/
def execSbcZpX (b : Byte) (s : State) : Out := subtractWithBorrow (.zeroPageX b) s

/-- SBC, absolute (R141). -/
def execSbcAbs (w : Word) (s : State) : Out := subtractWithBorrow (.absolute w) s

/-- SBC, absolute indexed by X (R141). -/
def execSbcAbsX (w : Word) (s : State) : Out := subtractWithBorrow (.absoluteX w) s

/-- SBC, absolute indexed by Y (R141). -/
def execSbcAbsY (w : Word) (s : State) : Out := subtractWithBorrow (.absoluteY w) s

/-- SBC, indexed indirect (R141). -/
def execSbcIndX (b : Byte) (s : State) : Out := subtractWithBorrow (.indexedIndirect b) s

/-- SBC, indirect indexed (R141). -/
def execSbcIndY (b : Byte) (s : State) : Out := subtractWithBorrow (.indirectIndexed b) s

/-- AND, immediate (R142). -/
def execAndImm (v : Byte) (s : State) : Out := andA (.immediate v) s

/-- AND, zero page (R142). -/
def execAndZp (b : Byte) (s : State) : Out := andA (.zeroPage b) s

/-- AND, zero page indexed by X (R142). -/
def execAndZpX (b : Byte) (s : State) : Out := andA (.zeroPageX b) s

/-- AND, absolute (R142). -/
def execAndAbs (w : Word) (s : State) : Out := andA (.absolute w) s

/-- AND, absolute indexed by X (R142). -/
def execAndAbsX (w : Word) (s : State) : Out := andA (.absoluteX w) s

/-- AND, absolute indexed by Y (R142). -/
def execAndAbsY (w : Word) (s : State) : Out := andA (.absoluteY w) s

/-- AND, indexed indirect (R142). -/
def execAndIndX (b : Byte) (s : State) : Out := andA (.indexedIndirect b) s

/-- AND, indirect indexed (R142). -/
def execAndIndY (b : Byte) (s : State) : Out := andA (.indirectIndexed b) s

/-- ORA, immediate (R143). -/
def execOraImm (v : Byte) (s : State) : Out := orA (.immediate v) s

/-- ORA, zero page (R143). -/
def execOraZp (b : Byte) (s : State) : Out := orA (.zeroPage b) s

/-- ORA, zero page indexed by X (R143). -/
def execOraZpX (b : Byte) (s : State) : Out := orA (.zeroPageX b) s

/-- ORA, absolute (R143). -/
def execOraAbs (w : Word) (s : State) : Out := orA (.absolute w) s

/-- ORA, absolute indexed by X (R143). -/
def execOraAbsX (w : Word) (s : State) : Out := orA (.absoluteX w) s

/-- ORA, absolute indexed by Y (R143). -/
def execOraAbsY (w : Word) (s : State) : Out := orA (.absoluteY w) s

/-- ORA, indexed indirect (R143). -/
def execOraIndX (b : Byte) (s : State) : Out := orA (.indexedIndirect b) s

/-- ORA, indirect indexed (R143). -/
def execOraIndY (b : Byte) (s : State) : Out := orA (.indirectIndexed b) s

/-- EOR, immediate (R144). -/
def execEorImm (v : Byte) (s : State) : Out := eorA (.immediate v) s

/-- EOR, zero page (R144). -/
def execEorZp (b : Byte) (s : State) : Out := eorA (.zeroPage b) s

/-- EOR, zero page indexed by X (R144). -/
def execEorZpX (b : Byte) (s : State) : Out := eorA (.zeroPageX b) s

/-- EOR, absolute (R144). -/
def execEorAbs (w : Word) (s : State) : Out := eorA (.absolute w) s

/-- EOR, absolute indexed by X (R144). -/
def execEorAbsX (w : Word) (s : State) : Out := eorA (.absoluteX w) s

/-- EOR, absolute indexed by Y (R144). -/
def execEorAbsY (w : Word) (s : State) : Out := eorA (.absoluteY w) s

/-- EOR, indexed indirect (R144). -/
def execEorIndX (b : Byte) (s : State) : Out := eorA (.indexedIndirect b) s

/-- EOR, indirect indexed (R144). -/
def execEorIndY (b : Byte) (s : State) : Out := eorA (.indirectIndexed b) s

/-- BIT, zero page (R145). -/
def execBitZp (b : Byte) (s : State) : Out := testBits (.zeroPage b) s

/-- BIT, absolute (R145). -/
def execBitAbs (w : Word) (s : State) : Out := testBits (.absolute w) s

/-- CMP, immediate (R146). -/
def execCmpImm (v : Byte) (s : State) : Out := compareA (.immediate v) s

/-- CMP, zero page (R146). -/
def execCmpZp (b : Byte) (s : State) : Out := compareA (.zeroPage b) s

/-- CMP, zero page indexed by X (R146). -/
def execCmpZpX (b : Byte) (s : State) : Out := compareA (.zeroPageX b) s

/-- CMP, absolute (R146). -/
def execCmpAbs (w : Word) (s : State) : Out := compareA (.absolute w) s

/-- CMP, absolute indexed by X (R146). -/
def execCmpAbsX (w : Word) (s : State) : Out := compareA (.absoluteX w) s

/-- CMP, absolute indexed by Y (R146). -/
def execCmpAbsY (w : Word) (s : State) : Out := compareA (.absoluteY w) s

/-- CMP, indexed indirect (R146). -/
def execCmpIndX (b : Byte) (s : State) : Out := compareA (.indexedIndirect b) s

/-- CMP, indirect indexed (R146). -/
def execCmpIndY (b : Byte) (s : State) : Out := compareA (.indirectIndexed b) s

/-- CPX, immediate (R147). -/
def execCpxImm (v : Byte) (s : State) : Out := compareX (.immediate v) s

/-- CPX, zero page (R147). -/
def execCpxZp (b : Byte) (s : State) : Out := compareX (.zeroPage b) s

/-- CPX, absolute (R147). -/
def execCpxAbs (w : Word) (s : State) : Out := compareX (.absolute w) s

/-- CPY, immediate (R148). -/
def execCpyImm (v : Byte) (s : State) : Out := compareY (.immediate v) s

/-- CPY, zero page (R148). -/
def execCpyZp (b : Byte) (s : State) : Out := compareY (.zeroPage b) s

/-- CPY, absolute (R148). -/
def execCpyAbs (w : Word) (s : State) : Out := compareY (.absolute w) s

/-- INC, zero page (R149). -/
def execIncZp (b : Byte) (s : State) : Out := incrementByte (.zeroPage b) s

/-- INC, zero page indexed by X (R149). -/
def execIncZpX (b : Byte) (s : State) : Out := incrementByte (.zeroPageX b) s

/-- INC, absolute (R149). -/
def execIncAbs (w : Word) (s : State) : Out := incrementByte (.absolute w) s

/-- INC, absolute indexed by X (R149). -/
def execIncAbsX (w : Word) (s : State) : Out := incrementByte (.absoluteX w) s

/-- DEC, zero page (R150). -/
def execDecZp (b : Byte) (s : State) : Out := decrementByte (.zeroPage b) s

/-- DEC, zero page indexed by X (R150). -/
def execDecZpX (b : Byte) (s : State) : Out := decrementByte (.zeroPageX b) s

/-- DEC, absolute (R150). -/
def execDecAbs (w : Word) (s : State) : Out := decrementByte (.absolute w) s

/-- DEC, absolute indexed by X (R150). -/
def execDecAbsX (w : Word) (s : State) : Out := decrementByte (.absoluteX w) s

/-- INX (R151). -/
def execInx (s : State) : Out := putX (inc s.x) (s.past .implicit)

/-- INY (R152). -/
def execIny (s : State) : Out := putY (inc s.y) (s.past .implicit)

/-- DEX (R153). -/
def execDex (s : State) : Out := putX (dec s.x) (s.past .implicit)

/-- DEY (R154). -/
def execDey (s : State) : Out := putY (dec s.y) (s.past .implicit)

end Sys2Proof.Machine
end

