-- ==== Sys2Proof/Machine/Control.lean ====
section
/-! DEFINITION. Control transfer (45_control.md R180 to R194). -/

namespace Sys2Proof.Machine

/-- A conditional branch: the offset byte is consumed either way, and PC becomes the target if the condition holds
(45_control.md R180; 40_addressing.md R93). -/
def branchIf (taken : Bool) (off : Byte) (s : State) : Out :=
  let s1 := s.past (.relative off)
  .next (s1.setPc (if taken then branchTarget off s1.pc else s1.pc))

/-- BCC (R181). -/
def execBcc (off : Byte) (s : State) : Out := branchIf (!s.p.c) off s

/-- BCS (R182). -/
def execBcs (off : Byte) (s : State) : Out := branchIf s.p.c off s

/-- BEQ (R183). -/
def execBeq (off : Byte) (s : State) : Out := branchIf s.p.z off s

/-- BNE (R184). -/
def execBne (off : Byte) (s : State) : Out := branchIf (!s.p.z) off s

/-- BMI (R185). -/
def execBmi (off : Byte) (s : State) : Out := branchIf s.p.n off s

/-- BPL (R186). -/
def execBpl (off : Byte) (s : State) : Out := branchIf (!s.p.n) off s

/-- BVC (R187). -/
def execBvc (off : Byte) (s : State) : Out := branchIf (!s.p.v) off s

/-- BVS (R188). -/
def execBvs (off : Byte) (s : State) : Out := branchIf s.p.v off s

/-- JMP over its two operand forms (45_control.md R189). -/
def jump (o : Operand) (s : State) : Out := resolveAddress o s fun ea s1 => .next (s1.setPc ea)

/-- JMP, absolute (R189). -/
def execJmpAbs (w : Word) (s : State) : Out := jump (.absolute w) s

/-- JMP, indirect (R189). -/
def execJmpInd (w : Word) (s : State) : Out := jump (.indirect w) s

/-- JSR (R190): pushes the return address less 1, high byte first, after both operand bytes are read. -/
def execJsr (w : Word) (s : State) : Out :=
  resolveAddress (.absolute w) s fun target s1 =>
    pushWord s.pc (s1.pc - 1) s1 fun s2 => .next (s2.setPc target)

/-- RTS (R191): pops the address, low byte first, and adds 1. -/
def execRts (s : State) : Out := popWord s.pc (s.past .implicit) fun w s1 => .next (s1.setPc (w + 1))

/-- BRK (R193): takes the software interrupt. -/
def execBrk (s : State) : Out := takeInterrupt s.pc (s.past .implicit)

/-- RTI (R194): returns from the software interrupt. -/
def execRti (s : State) : Out := returnFromInterrupt s.pc (s.past .implicit)

end Sys2Proof.Machine
end

