-- ==== Sys2Proof/Machine/FlagsNop.lean ====
section
/-! DEFINITION. Flag set and clear, no operation (48_flags_nop.md R220 to R227). -/

namespace Sys2Proof.Machine

/-- P rewritten and nothing else but PC's advance (48_flags_nop.md R220 to R226). -/
def putP (p : Status) (s : State) : Out := .next (s.setP p)

/-- CLC (R220). -/
def execClc (s : State) : Out := putP { s.p with c := false } (s.past .implicit)

/-- SEC (R221). -/
def execSec (s : State) : Out := putP { s.p with c := true } (s.past .implicit)

/-- CLI (R222). -/
def execCli (s : State) : Out := putP { s.p with i := false } (s.past .implicit)

/-- SEI (R223). -/
def execSei (s : State) : Out := putP { s.p with i := true } (s.past .implicit)

/-- CLD (R224). -/
def execCld (s : State) : Out := putP { s.p with d := false } (s.past .implicit)

/-- SED (R225). -/
def execSed (s : State) : Out := putP { s.p with d := true } (s.past .implicit)

/-- CLV (R226). -/
def execClv (s : State) : Out := putP { s.p with v := false } (s.past .implicit)

/-- NOP (R227): only PC's advance past the opcode. -/
def execNop (s : State) : Out := .next (s.past .implicit)

end Sys2Proof.Machine
end

