-- ==== Sys2Proof/Machine/LoadStore.lean ====
section
/-! DEFINITION. Loads and stores (42_load_store.md R120 to R125). -/

namespace Sys2Proof.Machine

/-- LDA over any operand form: the register, Z and N (42_load_store.md R120). -/
def loadA (o : Operand) (s : State) : Out :=
  resolveValue o s fun v s1 => .next ((s1.setA v).setP (s1.p.withZN v))

/-- LDX over any operand form: the register, Z and N (42_load_store.md R121). -/
def loadX (o : Operand) (s : State) : Out :=
  resolveValue o s fun v s1 => .next ((s1.setX v).setP (s1.p.withZN v))

/-- LDY over any operand form: the register, Z and N (42_load_store.md R122). -/
def loadY (o : Operand) (s : State) : Out :=
  resolveValue o s fun v s1 => .next ((s1.setY v).setP (s1.p.withZN v))

/-- STA over any operand form: the byte at the effective address, no flag (42_load_store.md R123). -/
def storeA (o : Operand) (s : State) : Out :=
  resolveAddress o s fun ea s1 => .next (s1.store ea s1.a)

/-- STX over any operand form: the byte at the effective address, no flag (42_load_store.md R124). -/
def storeX (o : Operand) (s : State) : Out :=
  resolveAddress o s fun ea s1 => .next (s1.store ea s1.x)

/-- STY over any operand form: the byte at the effective address, no flag (42_load_store.md R125). -/
def storeY (o : Operand) (s : State) : Out :=
  resolveAddress o s fun ea s1 => .next (s1.store ea s1.y)

/-- LDA, immediate (R120). -/
def execLdaImm (v : Byte) (s : State) : Out := loadA (.immediate v) s

/-- LDA, zero page (R120). -/
def execLdaZp (b : Byte) (s : State) : Out := loadA (.zeroPage b) s

/-- LDA, zero page indexed by X (R120). -/
def execLdaZpX (b : Byte) (s : State) : Out := loadA (.zeroPageX b) s

/-- LDA, absolute (R120). -/
def execLdaAbs (w : Word) (s : State) : Out := loadA (.absolute w) s

/-- LDA, absolute indexed by X (R120). -/
def execLdaAbsX (w : Word) (s : State) : Out := loadA (.absoluteX w) s

/-- LDA, absolute indexed by Y (R120). -/
def execLdaAbsY (w : Word) (s : State) : Out := loadA (.absoluteY w) s

/-- LDA, indexed indirect (R120). -/
def execLdaIndX (b : Byte) (s : State) : Out := loadA (.indexedIndirect b) s

/-- LDA, indirect indexed (R120). -/
def execLdaIndY (b : Byte) (s : State) : Out := loadA (.indirectIndexed b) s

/-- LDX, immediate (R121). -/
def execLdxImm (v : Byte) (s : State) : Out := loadX (.immediate v) s

/-- LDX, zero page (R121). -/
def execLdxZp (b : Byte) (s : State) : Out := loadX (.zeroPage b) s

/-- LDX, zero page indexed by Y (R121). -/
def execLdxZpY (b : Byte) (s : State) : Out := loadX (.zeroPageY b) s

/-- LDX, absolute (R121). -/
def execLdxAbs (w : Word) (s : State) : Out := loadX (.absolute w) s

/-- LDX, absolute indexed by Y (R121). -/
def execLdxAbsY (w : Word) (s : State) : Out := loadX (.absoluteY w) s

/-- LDY, immediate (R122). -/
def execLdyImm (v : Byte) (s : State) : Out := loadY (.immediate v) s

/-- LDY, zero page (R122). -/
def execLdyZp (b : Byte) (s : State) : Out := loadY (.zeroPage b) s

/-- LDY, zero page indexed by X (R122). -/
def execLdyZpX (b : Byte) (s : State) : Out := loadY (.zeroPageX b) s

/-- LDY, absolute (R122). -/
def execLdyAbs (w : Word) (s : State) : Out := loadY (.absolute w) s

/-- LDY, absolute indexed by X (R122). -/
def execLdyAbsX (w : Word) (s : State) : Out := loadY (.absoluteX w) s

/-- STA, zero page (R123). -/
def execStaZp (b : Byte) (s : State) : Out := storeA (.zeroPage b) s

/-- STA, zero page indexed by X (R123). -/
def execStaZpX (b : Byte) (s : State) : Out := storeA (.zeroPageX b) s

/-- STA, absolute (R123). -/
def execStaAbs (w : Word) (s : State) : Out := storeA (.absolute w) s

/-- STA, absolute indexed by X (R123). -/
def execStaAbsX (w : Word) (s : State) : Out := storeA (.absoluteX w) s

/-- STA, absolute indexed by Y (R123). -/
def execStaAbsY (w : Word) (s : State) : Out := storeA (.absoluteY w) s

/-- STA, indexed indirect (R123). -/
def execStaIndX (b : Byte) (s : State) : Out := storeA (.indexedIndirect b) s

/-- STA, indirect indexed (R123). -/
def execStaIndY (b : Byte) (s : State) : Out := storeA (.indirectIndexed b) s

/-- STX, zero page (R124). -/
def execStxZp (b : Byte) (s : State) : Out := storeX (.zeroPage b) s

/-- STX, zero page indexed by Y (R124). -/
def execStxZpY (b : Byte) (s : State) : Out := storeX (.zeroPageY b) s

/-- STX, absolute (R124). -/
def execStxAbs (w : Word) (s : State) : Out := storeX (.absolute w) s

/-- STY, zero page (R125). -/
def execStyZp (b : Byte) (s : State) : Out := storeY (.zeroPage b) s

/-- STY, zero page indexed by X (R125). -/
def execStyZpX (b : Byte) (s : State) : Out := storeY (.zeroPageX b) s

/-- STY, absolute (R125). -/
def execStyAbs (w : Word) (s : State) : Out := storeY (.absolute w) s

end Sys2Proof.Machine
end

