-- ==== Sys2Proof/Machine/ShiftRotate.lean ====
section
/-! DEFINITION. Shifts and rotates (44_shift_rotate.md R170 to R173). -/

namespace Sys2Proof.Machine

/-- A shift or rotate over any operand form: the location read once and written back, C, Z, N (44_shift_rotate.md R170 to
R173; 40_addressing.md R95). -/
def shiftWith (f : Byte → Bool → Shifted) (o : Operand) (s : State) : Out :=
  resolveLocation o s fun l s1 =>
    .next ((s1.writeLoc l (f (s1.readLoc l) s1.p.c).r).setP (s1.p.withShifted (f (s1.readLoc l) s1.p.c)))

/-- ASL: the old carry is not read (44_shift_rotate.md R170). -/
def shiftLeft (o : Operand) (s : State) : Out := shiftWith (fun v _ => asl v) o s

/-- LSR: the old carry is not read (44_shift_rotate.md R171). -/
def shiftRight (o : Operand) (s : State) : Out := shiftWith (fun v _ => lsr v) o s

/-- ROL (44_shift_rotate.md R172). -/
def rotateLeft (o : Operand) (s : State) : Out := shiftWith rol o s

/-- ROR (44_shift_rotate.md R173). -/
def rotateRight (o : Operand) (s : State) : Out := shiftWith ror o s

/-- ASL, accumulator (R170). -/
def execAslAcc (s : State) : Out := shiftLeft .accumulator s

/-- ASL, zero page (R170). -/
def execAslZp (b : Byte) (s : State) : Out := shiftLeft (.zeroPage b) s

/-- ASL, zero page indexed by X (R170). -/
def execAslZpX (b : Byte) (s : State) : Out := shiftLeft (.zeroPageX b) s

/-- ASL, absolute (R170). -/
def execAslAbs (w : Word) (s : State) : Out := shiftLeft (.absolute w) s

/-- ASL, absolute indexed by X (R170). -/
def execAslAbsX (w : Word) (s : State) : Out := shiftLeft (.absoluteX w) s

/-- LSR, accumulator (R171). -/
def execLsrAcc (s : State) : Out := shiftRight .accumulator s

/-- LSR, zero page (R171). -/
def execLsrZp (b : Byte) (s : State) : Out := shiftRight (.zeroPage b) s

/-- LSR, zero page indexed by X (R171). -/
def execLsrZpX (b : Byte) (s : State) : Out := shiftRight (.zeroPageX b) s

/-- LSR, absolute (R171). -/
def execLsrAbs (w : Word) (s : State) : Out := shiftRight (.absolute w) s

/-- LSR, absolute indexed by X (R171). -/
def execLsrAbsX (w : Word) (s : State) : Out := shiftRight (.absoluteX w) s

/-- ROL, accumulator (R172). -/
def execRolAcc (s : State) : Out := rotateLeft .accumulator s

/-- ROL, zero page (R172). -/
def execRolZp (b : Byte) (s : State) : Out := rotateLeft (.zeroPage b) s

/-- ROL, zero page indexed by X (R172). -/
def execRolZpX (b : Byte) (s : State) : Out := rotateLeft (.zeroPageX b) s

/-- ROL, absolute (R172). -/
def execRolAbs (w : Word) (s : State) : Out := rotateLeft (.absolute w) s

/-- ROL, absolute indexed by X (R172). -/
def execRolAbsX (w : Word) (s : State) : Out := rotateLeft (.absoluteX w) s

/-- ROR, accumulator (R173). -/
def execRorAcc (s : State) : Out := rotateRight .accumulator s

/-- ROR, zero page (R173). -/
def execRorZp (b : Byte) (s : State) : Out := rotateRight (.zeroPage b) s

/-- ROR, zero page indexed by X (R173). -/
def execRorZpX (b : Byte) (s : State) : Out := rotateRight (.zeroPageX b) s

/-- ROR, absolute (R173). -/
def execRorAbs (w : Word) (s : State) : Out := rotateRight (.absolute w) s

/-- ROR, absolute indexed by X (R173). -/
def execRorAbsX (w : Word) (s : State) : Out := rotateRight (.absoluteX w) s

end Sys2Proof.Machine
end

