-- ==== Sys2Proof/Machine/Stack.lean ====
section
/-! DEFINITION. Stack instructions (46_stack.md R200 to R203). -/

namespace Sys2Proof.Machine

/-- PHA (R200). -/
def execPha (s : State) : Out := pushByte s.pc s.a (s.past .implicit) .next

/-- PHP (R201): bits 4 and 5 of the pushed byte are 1; P is unchanged. -/
def execPhp (s : State) : Out := pushByte s.pc (pushedStatus s.p) (s.past .implicit) .next

/-- PLA (R202). -/
def execPla (s : State) : Out :=
  popByte s.pc (s.past .implicit) fun v s1 => .next ((s1.setA v).setP (s1.p.withZN v))

/-- PLP (R203): every flag but U. -/
def execPlp (s : State) : Out :=
  popByte s.pc (s.past .implicit) fun v s1 => .next (s1.setP (loadP s1.p v))

end Sys2Proof.Machine
end

