-- ==== Sys2Proof/Machine/Transfer.lean ====
section
/-! DEFINITION. Register transfers (47_transfer.md R210 to R215). -/

namespace Sys2Proof.Machine

/-- TAX (R210). -/
def execTax (s : State) : Out := putX s.a (s.past .implicit)

/-- TAY (R211). -/
def execTay (s : State) : Out := putY s.a (s.past .implicit)

/-- A written, with Z and N (47_transfer.md R212, R213). -/
def putA (v : Byte) (s : State) : Out := .next ((s.setA v).setP (s.p.withZN v))

/-- TXA (R212). -/
def execTxa (s : State) : Out := putA s.x (s.past .implicit)

/-- TYA (R213). -/
def execTya (s : State) : Out := putA s.y (s.past .implicit)

/-- TSX (R214). -/
def execTsx (s : State) : Out := putX s.sp (s.past .implicit)

/-- TXS (R215): no flag is written. -/
def execTxs (s : State) : Out := .next ((s.past .implicit).setSp s.x)

end Sys2Proof.Machine
end

