-- ==== Sys2Proof/Machine/Fetch.lean ====
section
/-! DEFINITION. Reading the bytes at PC, and what a step makes of bytes that are no instruction (70_reset_and_hazards.md
R263; 60_exceptions.md R242, R243). -/

namespace Sys2Proof.Machine

/-- The three bytes from an address on, with 16-bit wrap: as many as the longest instruction has (30_encoding.md R60, R61).
Reads have no side effect (20_memory.md R47), so the bytes after a shorter instruction are not touched by it (log entry 5). -/
def bytesAt (m : Memory) (addr : Word) : List Byte := [memRead m addr, memRead m (addr + 1), memRead m (addr + 2)]

/-- The decode failure at PC: PC still holds the address of the byte (60_exceptions.md R243). -/
def decodeFault (s : State) : Out := raise (.decodeFailure (memRead s.mem s.pc)) s.pc s

/-- Memory with three bytes placed from an address on, with 16-bit wrap. -/
def placeBytes (m : Memory) (addr : Word) (b0 b1 b2 : Byte) : Memory :=
  memWrite (memWrite (memWrite m addr b0) (addr + 1) b1) (addr + 2) b2

end Sys2Proof.Machine
end

