-- ==== Sys2Proof/Machine/Step.lean ====
section
/-! DEFINITION. One step of the machine (70_reset_and_hazards.md R263). -/

namespace Sys2Proof.Machine

/-- One fetch-decode-execute step. A halted machine executes nothing and gives its record again (70_reset_and_hazards.md
R265). -/
def step (s : State) : Host.Outcome State Fault Refusal :=
  match s.run with
  | .halted record => .fault (faultOf record s)
  | .running =>
    match decode (bytesAt s.mem s.pc) with
    | .ok (i, _) => exec i s
    | .error _ => decodeFault s

/-- `s` with an instruction, given as one number of `nbits` bits, placed at PC: the load of a program's first bytes into the
image (log entry 8). -/
def State.withFetchWord (s : State) (nbits w : Nat) : State :=
  s.setMem (placeBytes s.mem s.pc (tableByte nbits w 0) (tableByte nbits w 1) (tableByte nbits w 2))

end Sys2Proof.Machine
end

