-- ==== Sys2Proof/Machine/Accesses.lean ====
section
/-! DEFINITION. The memory accesses that a step makes through the port, in order (20_memory.md R41, R44): what a host that decorates
memory sees (R47). The step itself does not use it; that it gives the memory the step gives is a statement (`Obligations.AccessesReplay`). -/

namespace Sys2Proof.Machine

/-- One access of the memory port, always of one byte (20_memory.md R40, R41): a read with the byte it returns, or a write. -/
inductive Access where
  | read (addr : Word) (v : Byte)
  | write (addr : Word) (v : Byte)
deriving DecidableEq, Repr

/-- A read of memory as it is. -/
def readOf (m : Memory) (addr : Word) : Access := .read addr (memRead m addr)

/-- The opcode fetch and the operand fetches: as many bytes as the instruction has (20_memory.md R44). -/
def fetchAccesses (i : Instr) (s : State) : List Access :=
  match i.operand.size with
  | 0 => [readOf s.mem s.pc]
  | 1 => [readOf s.mem s.pc, readOf s.mem (s.pc + 1)]
  | _ => [readOf s.mem s.pc, readOf s.mem (s.pc + 1), readOf s.mem (s.pc + 2)]

/-- The pointer reads of an indirect mode, low byte first (40_addressing.md R90, R91, R92). -/
def pointerAccesses (o : Operand) (s : State) : List Access :=
  match o with
  | .indirect w =>
    [readOf s.mem w, readOf s.mem (if s.cfg.jmpIndirectPageWrap then wordOf (hi w) (lo w + 1) else w + 1)]
  | .indexedIndirect b => [readOf s.mem (zext16 (b + s.x)), readOf s.mem (zext16 (b + s.x + 1))]
  | .indirectIndexed b => [readOf s.mem (zext16 b), readOf s.mem (zext16 (b + 1))]
  | _ => []

/-- The data read of an instruction that takes a value: one byte at the effective address, none in Immediate and Accumulator mode
(40_addressing.md R94). -/
def valueAccesses (o : Operand) (s : State) : List Access :=
  match effectiveAddress o s with
  | some ea => [readOf s.mem ea]
  | none => []

/-- The data write of a store; it makes no data read (42_load_store.md R123). -/
def storeAccesses (v : Byte) (o : Operand) (s : State) : List Access :=
  match effectiveAddress o s with
  | some ea => [.write ea v]
  | none => []

/-- One read and one write of the same byte; none in Accumulator mode (43_arith_logic.md R149; 40_addressing.md R95). -/
def modifyAccesses (f : Byte → Byte) (o : Operand) (s : State) : List Access :=
  match effectiveAddress o s with
  | some ea => [readOf s.mem ea, .write ea (f (memRead s.mem ea))]
  | none => []

/-- The writes of pushing bytes from a stack pointer on, up to the one that faults (20_memory.md R50). -/
def pushAccesses (cfg : Config) : Byte → List Byte → List Access
  | _, [] => []
  | sp, v :: rest =>
    if sp == 0x00 && cfg.stackPolicy == .fatal then []
    else .write (stackAddr cfg sp) v :: pushAccesses cfg (sp - 1) rest

/-- The reads of popping bytes from a stack pointer on, up to the one that faults (20_memory.md R51). -/
def popAccesses (cfg : Config) (m : Memory) : Byte → Nat → List Access
  | _, 0 => []
  | sp, n + 1 =>
    if sp == 0xFF && cfg.stackPolicy == .fatal then []
    else readOf m (stackAddr cfg (sp + 1)) :: popAccesses cfg m (sp + 1) n

/-- Memory after a sequence of accesses, if every read in it returns the byte that memory then holds (20_memory.md R40, R53). -/
def replay : List Access → Memory → Option Memory
  | [], m => some m
  | .read a v :: rest, m => if memRead m a = v then replay rest m else none
  | .write a v :: rest, m => replay rest (memWrite m a v)

/-- The three pushes of BRK, and, if none of them faults, the two reads of its vector (45_control.md R193). -/
def interruptAccesses (s : State) : List Access :=
  let pushes := pushAccesses s.cfg s.sp [hi (s.pc + 2), lo (s.pc + 2), pushedStatus s.p]
  match pushes.length, replay pushes s.mem with
  | 3, some m => pushes ++ [readOf m s.cfg.brkVector, readOf m (s.cfg.brkVector + 1)]
  | _, _ => pushes

/-- The data and stack accesses of an instruction, in the order of its pseudocode (42 to 48). -/
def dataAccesses (i : Instr) (s : State) : List Access :=
  match i.op with
  | .lda | .ldx | .ldy | .adc | .sbc | .and | .ora | .eor | .bit | .cmp | .cpx | .cpy => valueAccesses i.operand s
  | .sta => storeAccesses s.a i.operand s
  | .stx => storeAccesses s.x i.operand s
  | .sty => storeAccesses s.y i.operand s
  | .inc => modifyAccesses inc i.operand s
  | .dec => modifyAccesses dec i.operand s
  | .asl => modifyAccesses (fun v => (asl v).r) i.operand s
  | .lsr => modifyAccesses (fun v => (lsr v).r) i.operand s
  | .rol => modifyAccesses (fun v => (rol v s.p.c).r) i.operand s
  | .ror => modifyAccesses (fun v => (ror v s.p.c).r) i.operand s
  | .pha => pushAccesses s.cfg s.sp [s.a]
  | .php => pushAccesses s.cfg s.sp [pushedStatus s.p]
  | .jsr => pushAccesses s.cfg s.sp [hi (s.pc + 2), lo (s.pc + 2)]
  | .brk => interruptAccesses s
  | .pla | .plp => popAccesses s.cfg s.mem s.sp 1
  | .rts => popAccesses s.cfg s.mem s.sp 2
  | .rti => popAccesses s.cfg s.mem s.sp 3
  | .inx | .iny | .dex | .dey | .bcc | .bcs | .beq | .bne | .bmi | .bpl | .bvc | .bvs | .jmp | .tax | .tay | .txa | .tya | .tsx
  | .txs | .clc | .sec | .cli | .sei | .cld | .sed | .clv | .nop => []

/-- The accesses of one step: an instruction's own, the fetch alone at a decode failure, none of a halted machine (20_memory.md
R44; 70_reset_and_hazards.md R263, R265). -/
def stepAccesses (s : State) : List Access :=
  match s.run with
  | .halted _ => []
  | .running =>
    match decode (bytesAt s.mem s.pc) with
    | .ok (i, _) => fetchAccesses i s ++ pointerAccesses i.operand s ++ dataAccesses i s
    | .error _ => [readOf s.mem s.pc]

end Sys2Proof.Machine
end

