-- ==== Sys2Proof/Machine/Assembly.lean ====
section
/-! DEFINITION. The written form of an instruction and the offset byte of a branch (30_encoding.md R70). Nothing in the machine uses
it. Text is a list of characters. -/

namespace Sys2Proof.Machine

/-- The three letters of a mnemonic (30_encoding.md R69). -/
def mnemonicText : Op → List Char
  | .lda => ['L', 'D', 'A']
  | .ldx => ['L', 'D', 'X']
  | .ldy => ['L', 'D', 'Y']
  | .sta => ['S', 'T', 'A']
  | .stx => ['S', 'T', 'X']
  | .sty => ['S', 'T', 'Y']
  | .adc => ['A', 'D', 'C']
  | .sbc => ['S', 'B', 'C']
  | .and => ['A', 'N', 'D']
  | .ora => ['O', 'R', 'A']
  | .eor => ['E', 'O', 'R']
  | .bit => ['B', 'I', 'T']
  | .cmp => ['C', 'M', 'P']
  | .cpx => ['C', 'P', 'X']
  | .cpy => ['C', 'P', 'Y']
  | .inc => ['I', 'N', 'C']
  | .dec => ['D', 'E', 'C']
  | .inx => ['I', 'N', 'X']
  | .iny => ['I', 'N', 'Y']
  | .dex => ['D', 'E', 'X']
  | .dey => ['D', 'E', 'Y']
  | .asl => ['A', 'S', 'L']
  | .lsr => ['L', 'S', 'R']
  | .rol => ['R', 'O', 'L']
  | .ror => ['R', 'O', 'R']
  | .bcc => ['B', 'C', 'C']
  | .bcs => ['B', 'C', 'S']
  | .beq => ['B', 'E', 'Q']
  | .bne => ['B', 'N', 'E']
  | .bmi => ['B', 'M', 'I']
  | .bpl => ['B', 'P', 'L']
  | .bvc => ['B', 'V', 'C']
  | .bvs => ['B', 'V', 'S']
  | .jmp => ['J', 'M', 'P']
  | .jsr => ['J', 'S', 'R']
  | .rts => ['R', 'T', 'S']
  | .brk => ['B', 'R', 'K']
  | .rti => ['R', 'T', 'I']
  | .pha => ['P', 'H', 'A']
  | .php => ['P', 'H', 'P']
  | .pla => ['P', 'L', 'A']
  | .plp => ['P', 'L', 'P']
  | .tax => ['T', 'A', 'X']
  | .tay => ['T', 'A', 'Y']
  | .txa => ['T', 'X', 'A']
  | .tya => ['T', 'Y', 'A']
  | .tsx => ['T', 'S', 'X']
  | .txs => ['T', 'X', 'S']
  | .clc => ['C', 'L', 'C']
  | .sec => ['S', 'E', 'C']
  | .cli => ['C', 'L', 'I']
  | .sei => ['S', 'E', 'I']
  | .cld => ['C', 'L', 'D']
  | .sed => ['S', 'E', 'D']
  | .clv => ['C', 'L', 'V']
  | .nop => ['N', 'O', 'P']

/-- A hexadecimal digit. -/
def hexDigit (n : Nat) : Char :=
  ['0', '1', '2', '3', '4', '5', '6', '7', '8', '9', 'A', 'B', 'C', 'D', 'E', 'F'].getD n '?'

/-- A byte in hexadecimal: `$nn`. -/
def hexByte (b : Byte) : List Char := ['$', hexDigit (b.toNat / 16), hexDigit (b.toNat % 16)]

/-- A word in hexadecimal: `$nnnn`. -/
def hexWord (w : Word) : List Char := hexByte (hi w) ++ [hexDigit ((lo w).toNat / 16), hexDigit ((lo w).toNat % 16)]

/-- The operand form of a mode, for an instruction at `pc`; a branch shows its target (30_encoding.md R70). -/
def operandText (pc : Word) : Operand → List Char
  | .implicit => []
  | .accumulator => [' ', 'A']
  | .immediate v => [' ', '#'] ++ hexByte v
  | .zeroPage b => ' ' :: hexByte b
  | .zeroPageX b => ' ' :: hexByte b ++ [',', 'X']
  | .zeroPageY b => ' ' :: hexByte b ++ [',', 'Y']
  | .relative off => ' ' :: hexWord (branchTarget off (pc + 2))
  | .absolute w => ' ' :: hexWord w
  | .absoluteX w => ' ' :: hexWord w ++ [',', 'X']
  | .absoluteY w => ' ' :: hexWord w ++ [',', 'Y']
  | .indirect w => [' ', '('] ++ hexWord w ++ [')']
  | .indexedIndirect b => [' ', '('] ++ hexByte b ++ [',', 'X', ')']
  | .indirectIndexed b => [' ', '('] ++ hexByte b ++ [')', ',', 'Y']

/-- An instruction at `pc` as the assembler writes it (30_encoding.md R70). -/
def assemblyText (pc : Word) (i : Instr) : List Char := mnemonicText i.op ++ operandText pc i.operand

/-- The offset byte of a branch at `pc` to a target, if the target is within -128 to +127 of the address after the branch
(30_encoding.md R70). -/
def branchOffset (pc target : Word) : Option Byte :=
  let d := (target - (pc + 2)).toInt
  if -128 ≤ d ∧ d ≤ 127 then some (BitVec.ofInt 8 d) else none

end Sys2Proof.Machine
end

