-- ==== Sys2Proof/Machine/RunLoop.lean ====
section
/-! DEFINITION. Construction and the run entry point: the host port of the hardware (70_reset_and_hazards.md R260 to R268). -/

namespace Sys2Proof.Machine

/-- `StartPC()` over an image (70_reset_and_hazards.md R261). -/
def startPc (cfg : Config) (image : Memory) : Word :=
  match cfg.startMode with
  | .fixedStart => cfg.codeStart
  | .vector => memReadWord image cfg.resetVector

/-- `construct(image)` under given parameters (70_reset_and_hazards.md R260; 10_state.md R33). -/
def construct (cfg : Config) (image : Memory) : State where
  a := 0x00
  x := 0x00
  y := 0x00
  sp := 0xFF
  pc := startPc cfg image
  p := { c := false, z := false, i := false, d := false, b := false, u := false, v := false, n := false }
  mem := image
  run := .running
  cfg := cfg

/-- How a call of `run` ends (70_reset_and_hazards.md R268). -/
inductive RunEnd where
  /-- `LimitReached`: as many steps as the limit have completed. -/
  | limitReached
  /-- A step faulted, or the machine was halted already; the record goes to the host. -/
  | faulted (record : FaultRecord)
  /-- The model has no meaning for the instruction; no instruction of this model ends a run so. -/
  | refused (reason : Refusal)
deriving DecidableEq, Repr

/-- `run(limit)`: how it ends, and the state the host then sees (70_reset_and_hazards.md R265). -/
def runLimit : Nat → State → RunEnd × State
  | 0, s =>
    match s.run with
    | .halted record => (.faulted record, s)
    | .running => (.limitReached, s)
  | n + 1, s =>
    match step s with
    | .next t => runLimit n t
    | .fault f => (.faulted f.record, f.left)
    | .refused r => (.refused r, s)

/-- `run()` without a limit returns this record with this state: some number of steps comes to a fault
(70_reset_and_hazards.md R266). -/
def RunsToFault (s : State) (record : FaultRecord) (t : State) : Prop := ∃ n, runLimit n s = (.faulted record, t)

end Sys2Proof.Machine
end

