-- ==== Sys2Proof/Safety.lean ====
section
/-! DEFINITION. What counts as a good run, in the terms claims use (70_reset_and_hazards.md R268), and the invariant of the
machine. -/

namespace Sys2Proof.Safety

open Sys2Proof.Machine

/-- A run of `n` steps with no fault recorded, from `s` to `t` (70_reset_and_hazards.md R268: a claim about a program takes
"no fault recorded" as a premise). -/
def RunsClean (n : Nat) (s t : State) : Prop := runLimit n s = (.limitReached, t)

/-- The invariant: memory is in canonical form (so it is one of the 65,536-byte memories, written one way), the stored U
flag is 0, as it is from construction on (93_implementation_defined.md I6), and the machine is running. -/
def Inv (s : State) : Prop := s.mem.wf = true ∧ s.p.u = false ∧ s.run = .running

end Sys2Proof.Safety
end

