-- ==== Sys2Proof/Certificates/Slice0/Obligations.lean ====
section
/-! DEFINITION. The statements for the provers. Each says, in its docstring, which rules of the spec it formalises. Where a rule
marks a point as the spec's own decision (92_eei_decisions.md) or as a derivation, the docstring says so. Every opcode byte but 0xA9
is marked as general knowledge (30_encoding.md R65), and so are some rules: the spec states them as its rules, and they are followed
as such (log entry 9). -/

namespace Sys2Proof.Statements

open Sys2Proof.Machine

/-- The encoding of a mnemonic: its (mode, opcode byte) pairs are exactly those the decoder gives it, and no other. -/
def HasOpcodes (op : Op) (forms : List (Mode × Byte)) : Prop :=
  ∀ m b, (m, b) ∈ forms ↔ decodeOpcode b = some (op, m)

/-- The 105 bytes with no legal meaning (30_encoding.md R66). -/
def illegalBytes : List Byte :=
  [0x02, 0x03, 0x04, 0x07, 0x0B, 0x0C, 0x0F, 0x12, 0x13, 0x14, 0x17, 0x1A, 0x1B, 0x1C, 0x1F] ++
  [0x22, 0x23, 0x27, 0x2B, 0x2F, 0x32, 0x33, 0x34, 0x37, 0x3A, 0x3B, 0x3C, 0x3F, 0x42, 0x43] ++
  [0x44, 0x47, 0x4B, 0x4F, 0x52, 0x53, 0x54, 0x57, 0x5A, 0x5B, 0x5C, 0x5F, 0x62, 0x63, 0x64] ++
  [0x67, 0x6B, 0x6F, 0x72, 0x73, 0x74, 0x77, 0x7A, 0x7B, 0x7C, 0x7F, 0x80, 0x82, 0x83, 0x87] ++
  [0x89, 0x8B, 0x8F, 0x92, 0x93, 0x97, 0x9B, 0x9C, 0x9E, 0x9F, 0xA3, 0xA7, 0xAB, 0xAF, 0xB2] ++
  [0xB3, 0xB7, 0xBB, 0xBF, 0xC2, 0xC3, 0xC7, 0xCB, 0xCF, 0xD2, 0xD3, 0xD4, 0xD7, 0xDA, 0xDB] ++
  [0xDC, 0xDF, 0xE2, 0xE3, 0xE7, 0xEB, 0xEF, 0xF2, 0xF3, 0xF4, 0xF7, 0xFA, 0xFB, 0xFC, 0xFF]

/-- Z and N of a value, everything else of P as it was (41_alu.md R100). -/
def zn (p : Status) (v : Byte) : Status := { p with z := decide (v = 0), n := v.getLsbD 7 }

/-- C, and Z and N of a value, everything else of P as it was. -/
def czn (p : Status) (c : Bool) (v : Byte) : Status := { p with c := c, z := decide (v = 0), n := v.getLsbD 7 }

/-- `STACK_POLICY = Fatal`. -/
def Fatal (s : State) : Prop := s.cfg.stackPolicy = .fatal

/-- The outcome is a fault raised at state `u`: its record (60_exceptions.md R241, decision D7) and the halted state it leaves, which
the model carries in the fault (log entry 6). -/
def FaultsAt (out : Out) (cause : FaultCause) (pc0 : Word) (u : State) : Prop :=
  ∃ f, out = .fault f ∧
    f.record = { cause := cause, address := pc0,
                 snapshot := { a := u.a, x := u.x, y := u.y, sp := u.sp, pc := u.pc, p := pByte u.p } } ∧
    f.left = { u with run := .halted f.record }

/-- Memory with a byte pushed at stack pointer `sp`. -/
def pushAt (s : State) (m : Memory) (sp : Byte) (v : Byte) : Memory := memWrite m (stackAddr s.cfg sp) v

/-- The byte on the stack at stack pointer `sp`. -/
def stackAt (s : State) (sp : Byte) : Byte := memRead s.mem (stackAddr s.cfg sp)

/-- `n` completed steps lead from `s` to `t`. -/
def StepsTo : Nat → State → State → Prop
  | 0, s, t => s = t
  | n + 1, s, t => ∃ u, step s = .next u ∧ StepsTo n u t

/-- The mnemonics that store at an effective address, in their memory forms. -/
def storingOps : List Op := [.sta, .stx, .sty, .inc, .dec, .asl, .lsr, .rol, .ror]

/-- The mnemonics that push. -/
def pushingOps : List Op := [.pha, .php, .jsr, .brk]

/-- The mnemonics that pop. -/
def poppingOps : List Op := [.pla, .plp, .rts, .rti]

/-- The mnemonics that may transfer control. -/
def controlOps : List Op := [.bcc, .bcs, .beq, .bne, .bmi, .bpl, .bvc, .bvs, .jmp, .jsr, .rts, .brk, .rti]

/-- The mnemonics that write A, in the Accumulator mode for the shifts and rotates (10_state.md R21). -/
def WritesA (i : Instr) : Prop :=
  i.op ∈ [.lda, .adc, .sbc, .and, .ora, .eor, .pla, .txa, .tya] ∨ i.mode = .accumulator

/-- The mnemonics that write Z (10_state.md R27); N has the same. -/
def zWriters : List Op :=
  [.lda, .ldx, .ldy, .adc, .sbc, .and, .ora, .eor, .bit, .cmp, .cpx, .cpy, .inc, .dec, .inx, .iny, .dex, .dey,
   .asl, .lsr, .rol, .ror, .pla, .tax, .tay, .txa, .tya, .tsx, .plp, .rti]

end Sys2Proof.Statements

open Sys2Proof Sys2Proof.Machine Sys2Proof.Statements Sys2Proof.Safety

/-! ### Encoding -/

/-- Decoding an encoded instruction gives it back, whatever its operand and whatever follows. Every instruction is well formed
(`Laws.EncodedForm`). -/
def Obligations.DecodeOfEncode : Prop :=
  ∀ (i : Instr) (rest : List Byte), decode (encode i ++ rest) = .ok (i, rest)

/-- What decodes is the encoding of what it decodes to: no byte is misread or dropped. -/
def Obligations.EncodeOfDecode : Prop :=
  ∀ (bs : List Byte) (i : Instr) (rest : List Byte), decode bs = .ok (i, rest) → bs = encode i ++ rest

/-- Instructions written out from the encoding of the spec decode to what they stand for, one or more of each family. -/
def Obligations.WrittenBytesDecode : Prop :=
  decode [0xA9, 0x11] = .ok (.ldaImm 0x11, []) ∧
  decode [0x96, 0xFF] = .ok (.stxZpY 0xFF, []) ∧
  decode [0x6D, 0x34, 0x12] = .ok (.adcAbs 0x1234, []) ∧
  decode [0x4A] = .ok (.lsrAcc, []) ∧
  decode [0x6C, 0x34, 0x12] = .ok (.jmpInd 0x1234, []) ∧
  decode [0xD0, 0xF8] = .ok (.bne 0xF8, []) ∧
  decode [0x08] = .ok (.php, []) ∧
  decode [0xBA] = .ok (.tsx, []) ∧
  decode [0xB8] = .ok (.clv, []) ∧
  decode [0xEA, 0x02] = .ok (.nop, [0x02])

/-- R61: the length of an instruction by its mode, for the PC and for the encoding alike. The rule marks itself as derived. -/
def Obligations.LengthByMode : Prop :=
  ∀ i : Instr, (encode i).length = (lengthOf i.operand).toNat ∧
    (i.mode ∈ [.implicit, .accumulator] → (encode i).length = 1) ∧
    (i.mode ∈ [.immediate, .zeroPage, .zeroPageX, .zeroPageY, .relative, .indexedIndirect, .indirectIndexed] →
      (encode i).length = 2) ∧
    (i.mode ∈ [.absolute, .absoluteX, .absoluteY, .indirect] → (encode i).length = 3)

/-- R66: exactly the 105 listed bytes have no meaning, and fetching one is the decode failure, which halts the run. -/
def Obligations.IllegalBytesFail : Prop :=
  illegalBytes.length = 105 ∧ (∀ b, decodeOpcode b = none ↔ b ∈ illegalBytes) ∧
  ∀ s : State, s.run = .running → memRead s.mem s.pc ∈ illegalBytes →
    ∃ f, step s = .fault f ∧ f.record.cause = .decodeFailure (memRead s.mem s.pc) ∧ f.left.run = .halted f.record

/-- A decode failure changes no register and no memory: PC still holds the address of the byte, and the record shows it. That PC
stays is the spec's own decision D7. -/
def Obligations.DecodeFailureChangesNothing : Prop :=
  ∀ s : State, s.run = .running → decodeOpcode (memRead s.mem s.pc) = none →
    FaultsAt (step s) (.decodeFailure (memRead s.mem s.pc)) s.pc s

/-! ### The step and the run -/

/-- A step of a running machine is the execution of the instruction that the bytes at PC decode to, and nothing around it:
`exec` itself starts with PC at the opcode byte. That the operand bytes are read with the opcode is log entry 5. -/
def Obligations.StepRunsDecodedInstruction : Prop :=
  ∀ (s : State) (i : Instr) (rest : List Byte), s.run = .running →
    decode [memRead s.mem s.pc, memRead s.mem (s.pc + 1), memRead s.mem (s.pc + 2)] = .ok (i, rest) →
    i.wf = true ∧ step s = exec i s

/-- Wherever memory holds the bytes of an instruction from PC on, with 16-bit wrap, a step of a running machine executes it.
That the operand bytes are read with the opcode is log entry 5. -/
def Obligations.StoredEncodingRuns : Prop :=
  ∀ (i : Instr) (s : State), s.run = .running →
    (∀ k b, (encode i)[k]? = some b → memRead s.mem (s.pc + BitVec.ofNat 16 k) = b) →
    step s = exec i s

/-- R56, for one case: if an STA absolute to the opcode byte of the instruction after it, of the opcode of a one-byte instruction,
completes, the next step executes that instruction. That the STA does complete is `StoreResults`. -/
def Obligations.StoreIntoCodeIsFetched : Prop :=
  ∀ (s t : State) (i : Instr), s.run = .running → s.mem.wf = true → encode i = [s.a] →
    exec (.staAbs (s.pc + 3)) s = .next t → step t = exec i t

/-- A fault halts the machine for good: the state it leaves is halted with the fault's record; and a halted machine executes nothing,
a step and a run of any limit giving its record again and leaving it as it is. What `run` does on a halted machine is the spec's own
decision D24. That a step of a halted machine faults with the same record and leaves the state as it is, is the model's own (log
entry 6): the spec executes a step only while the machine is running. -/
def Obligations.FaultHaltsForGood : Prop :=
  (∀ (s : State) (f : Fault), step s = .fault f → f.left.run = .halted f.record) ∧
  ∀ (s : State) (r : FaultRecord), s.run = .halted r →
    (∃ f, step s = .fault f ∧ f.record = r ∧ f.left = s) ∧ ∀ n, runLimit n s = (.faulted r, s)

/-- What `run(limit)` returns: `LimitReached` exactly when that many steps completed, and a fault record exactly when the machine
was halted, or an earlier step faulted after fewer completed steps. The clause about a halted machine is decision D24. -/
def Obligations.RunLimitMeaning : Prop :=
  (∀ n s t, runLimit n s = (.limitReached, t) ↔ s.run = .running ∧ StepsTo n s t) ∧
  ∀ n s r t, runLimit n s = (.faulted r, t) ↔
    (s.run = .halted r ∧ t = s) ∨
    (s.run = .running ∧ ∃ k u f, k < n ∧ StepsTo k s u ∧ step u = .fault f ∧ f.record = r ∧ f.left = t)

/-- Splitting a run changes nothing (R267, which marks this as derived): `m + n` steps are `m` steps and then, if the limit was
reached, `n` more. For a machine halted at the start, and after a fault, it rests on decision D24. -/
def Obligations.SplitRunIsOneRun : Prop :=
  ∀ (m n : Nat) (s : State), runLimit (m + n) s =
    if (runLimit m s).1 = .limitReached then runLimit n (runLimit m s).2 else runLimit m s

/-- A run without a limit has at most one outcome, and has none exactly when every limit is reached (R266). For a machine halted at
the start it rests on decision D24. -/
def Obligations.UnlimitedRunStopsOnlyByFault : Prop :=
  ∀ s : State,
    (∀ r t r' t', RunsToFault s r t → RunsToFault s r' t' → r = r' ∧ t = t') ∧
    ((¬ ∃ r t, RunsToFault s r t) ↔ ∀ n, ∃ t, runLimit n s = (.limitReached, t))

/-- Nothing is refused: an instruction, a step and a run end in a next state or `LimitReached`, or in a fault (R268). What a run of a
halted machine returns is decision D24, and a step of one is the model's own (log entry 6). -/
def Obligations.NothingIsRefused : Prop :=
  (∀ (i : Instr) (s : State) (r : Refusal), exec i s ≠ .refused r) ∧
  (∀ (s : State) (r : Refusal), step s ≠ .refused r) ∧
  ∀ (n : Nat) (s : State), (runLimit n s).1 = .limitReached ∨ ∃ r, (runLimit n s).1 = .faulted r

/-! ### Memory -/

/-- A write changes only the byte it addresses (R47), and a read gives what was written (R40, which marks this as decision D18). -/
def Obligations.WriteChangesOneByte : Prop :=
  ∀ (m : Memory) (a b : Word) (v : Byte), m.wf = true →
    memRead (memWrite m a v) b = if b = a then v else memRead m b

/-- Memory is one function of the address written one way: two memories in canonical form that read the same everywhere are the
same. The canonical form is the model's own (log entry 3); that every byte holds a value is decision D18 (R30). -/
def Obligations.EqualReadsEqualMemory : Prop :=
  ∀ m m' : Memory, m.wf = true → m'.wf = true → (∀ a : Word, memRead m a = memRead m' a) → m = m'

/-- Words are little-endian, and the high byte's address wraps: at 16 bits for a word, at 8 bits for a zero-page pointer. The order
of the two reads and the 8-bit wrap are the spec's own decisions D16 and D15, and the wrap at 0xFFFF is marked as derived. -/
def Obligations.LittleEndianWords : Prop :=
  ∀ (m : Memory),
    (∀ a : Word, (memReadWord m a).toNat = (memRead m a).toNat + 256 * (memRead m (a + 1)).toNat) ∧
    memReadWord m 0xFFFF = wordOf (memRead m 0x0000) (memRead m 0xFFFF) ∧
    (∀ p : Byte, p ≠ 0xFF → zpReadWord m p = memReadWord m (p.setWidth 16)) ∧
    zpReadWord m 0xFF = wordOf (memRead m 0x0000) (memRead m 0x00FF)

/-- The access sequence of a step (R44) accounts for memory: from the memory before, every read in it returns the byte then held, and
its writes give the memory after, whether the step completes or faults part of the way. The order of accesses is decision D16, what a
faulting push or pop leaves D6, BRK's accesses D11 and D12, that a read returns the latest write D18; that a step of a halted machine,
which makes no access, faults is the model's own (log entry 6). -/
def Obligations.AccessesReplay : Prop :=
  ∀ s : State,
    (∀ t, step s = .next t → replay (stepAccesses s) s.mem = some t.mem) ∧
    ∀ f, step s = .fault f → replay (stepAccesses s) s.mem = some f.left.mem

/-! ### Addressing -/

/-- R84 to R89: the effective address and the length of the zero-page and absolute modes, with their 8-bit and 16-bit wraps, and
which instructions use zero page indexed by Y. -/
def Obligations.DirectModesAddress : Prop :=
  (∀ (s : State) (b : Byte),
    (effectiveAddress (.zeroPage b) s).map BitVec.toNat = some b.toNat ∧ lengthOf (.zeroPage b) = 2 ∧
    (effectiveAddress (.zeroPageX b) s).map BitVec.toNat = some ((b.toNat + s.x.toNat) % 256) ∧
    lengthOf (.zeroPageX b) = 2 ∧
    (effectiveAddress (.zeroPageY b) s).map BitVec.toNat = some ((b.toNat + s.y.toNat) % 256) ∧
    lengthOf (.zeroPageY b) = 2) ∧
  (∀ (s : State) (h l : Byte),
    (effectiveAddress (.absolute (wordOf h l)) s).map BitVec.toNat = some (256 * h.toNat + l.toNat) ∧
    lengthOf (.absolute (wordOf h l)) = 3 ∧
    (effectiveAddress (.absoluteX (wordOf h l)) s).map BitVec.toNat =
      some ((256 * h.toNat + l.toNat + s.x.toNat) % 65536) ∧
    lengthOf (.absoluteX (wordOf h l)) = 3 ∧
    (effectiveAddress (.absoluteY (wordOf h l)) s).map BitVec.toNat =
      some ((256 * h.toNat + l.toNat + s.y.toNat) % 65536) ∧
    lengthOf (.absoluteY (wordOf h l)) = 3) ∧
  ∀ i : Instr, i.mode = .zeroPageY → i.op ∈ [.ldx, .stx]

/-- The effective address of the three indirect modes: the parameter of `JMP (ind)` (decision D14) and the pointer kept in page 0
(decision D15). -/
def Obligations.IndirectModesAddress : Prop :=
  (∀ (s : State) (ptr : Word), s.cfg.jmpIndirectPageWrap = false →
    effectiveAddress (.indirect ptr) s = some (wordOf (memRead s.mem (ptr + 1)) (memRead s.mem ptr))) ∧
  (∀ (s : State) (ptr : Word), s.cfg.jmpIndirectPageWrap = true →
    effectiveAddress (.indirect ptr) s =
      some (wordOf (memRead s.mem ((ptr &&& 0xFF00) ||| ((ptr + 1) &&& 0x00FF))) (memRead s.mem ptr))) ∧
  (∀ (s : State) (b : Byte), effectiveAddress (.indexedIndirect b) s =
    some (wordOf (memRead s.mem ((b + s.x + 1).setWidth 16)) (memRead s.mem ((b + s.x).setWidth 16)))) ∧
  (∀ (s : State) (b : Byte), effectiveAddress (.indirectIndexed b) s =
    some (wordOf (memRead s.mem ((b + 1).setWidth 16)) (memRead s.mem (b.setWidth 16)) + s.y.setWidth 16)) ∧
  ∀ i : Instr, i.mode = .indirect → i.op = .jmp

/-- R94: the value of an operand. -/
def Obligations.OperandValues : Prop :=
  ∀ (s : State),
    (∀ v, operandValue (.immediate v) s = some v) ∧ operandValue .accumulator s = some s.a ∧
    ∀ o : Operand,
      o.mode ∈ [.zeroPage, .zeroPageX, .zeroPageY, .absolute, .absoluteX, .absoluteY, .indexedIndirect, .indirectIndexed] →
      ∃ ea, effectiveAddress o s = some ea ∧ operandValue o s = some (memRead s.mem ea)

/-- Asking the resolver for an address of Implicit, Accumulator or Immediate is the contract violation (decision D22), code 4
(decision D20), and no instruction comes to it: a fault of an instruction is always a stack exhaustion. -/
def Obligations.ContractViolationUnreached : Prop :=
  (∀ (o : Operand) (s : State) (next : Word → State → Out), o.mode ∈ [.implicit, .accumulator, .immediate] →
    ∃ f, resolveAddress o s next = .fault f ∧ f.record.cause = .resolverContract o.mode ∧ f.record.cause.code = 4) ∧
  ∀ (i : Instr) (s : State) (f : Fault), exec i s = .fault f → ∃ access sp, f.record.cause = .stackExhaustion access sp

/-! ### The ALU -/

/-- The adder: the sum modulo 256, the carry out of bit 7, and V exactly on two's-complement overflow; the subtractor: the difference
less the borrow modulo 256, carry as not-borrow, and V likewise. The carry-in is decision D8, the subtractor decision D9, and the
readings as integers are marked as derived. -/
def Obligations.AddSubtractArithmetic : Prop :=
  ∀ (a b : Byte) (cin : Bool),
    (addC a b cin).r.toNat = (a.toNat + b.toNat + cin.toNat) % 256 ∧
    ((addC a b cin).c = true ↔ 256 ≤ a.toNat + b.toNat + cin.toNat) ∧
    ((addC a b cin).v = true ↔
      a.toInt + b.toInt + (cin.toNat : Int) < -128 ∨ 127 < a.toInt + b.toInt + (cin.toNat : Int)) ∧
    (((subC a b cin).r.toNat : Int) = ((a.toNat : Int) - b.toNat - (1 - cin.toNat)) % 256) ∧
    ((subC a b cin).c = true ↔ b.toNat + 1 ≤ a.toNat + cin.toNat) ∧
    ((subC a b cin).v = true ↔
      a.toInt - b.toInt - (1 - (cin.toNat : Int)) < -128 ∨ 127 < a.toInt - b.toInt - (1 - (cin.toNat : Int)))

/-- A comparison gives the flags of a subtraction without borrow, less its V. The rule marks this as derived. -/
def Obligations.CompareIsSubtract : Prop :=
  ∀ r m : Byte,
    compareBytes r m = { c := (subC r m true).c, z := decide ((subC r m true).r = 0), n := (subC r m true).r.getLsbD 7 }

/-- ADC and SBC give the same whatever D is: the part of R104 that D has no effect. That the result is the binary one is
`AddSubtractResults` with `AddSubtractArithmetic`. -/
def Obligations.DecimalModeIgnored : Prop :=
  ∀ (i : Instr) (s : State) (d : Bool), i.op ∈ [.adc, .sbc] →
    ∃ t, exec i s = .next t ∧
      exec i { s with p := { s.p with d := d } } = .next { t with p := { t.p with d := d } }

/-! ### Loads and stores -/

/-- R120 to R122: LDA, LDX, LDY in every form. -/
def Obligations.LoadResults : Prop :=
  HasOpcodes .lda [(.immediate, 0xA9), (.zeroPage, 0xA5), (.zeroPageX, 0xB5), (.absolute, 0xAD), (.absoluteX, 0xBD), (.absoluteY, 0xB9), (.indexedIndirect, 0xA1), (.indirectIndexed, 0xB1)] ∧
  HasOpcodes .ldx [(.immediate, 0xA2), (.zeroPage, 0xA6), (.zeroPageY, 0xB6), (.absolute, 0xAE), (.absoluteY, 0xBE)] ∧
  HasOpcodes .ldy [(.immediate, 0xA0), (.zeroPage, 0xA4), (.zeroPageX, 0xB4), (.absolute, 0xAC), (.absoluteX, 0xBC)] ∧
  (∀ (i : Instr) (s : State), i.op = .lda → ∃ v, operandValue i.operand s = some v ∧
    exec i s = .next { s with a := v, p := zn s.p v, pc := s.pc + lengthOf i.operand }) ∧
  (∀ (i : Instr) (s : State), i.op = .ldx → ∃ v, operandValue i.operand s = some v ∧
    exec i s = .next { s with x := v, p := zn s.p v, pc := s.pc + lengthOf i.operand }) ∧
  ∀ (i : Instr) (s : State), i.op = .ldy → ∃ v, operandValue i.operand s = some v ∧
    exec i s = .next { s with y := v, p := zn s.p v, pc := s.pc + lengthOf i.operand }

/-- R123 to R125: STA, STX, STY in every form. -/
def Obligations.StoreResults : Prop :=
  HasOpcodes .sta [(.zeroPage, 0x85), (.zeroPageX, 0x95), (.absolute, 0x8D), (.absoluteX, 0x9D), (.absoluteY, 0x99), (.indexedIndirect, 0x81), (.indirectIndexed, 0x91)] ∧
  HasOpcodes .stx [(.zeroPage, 0x86), (.zeroPageY, 0x96), (.absolute, 0x8E)] ∧
  HasOpcodes .sty [(.zeroPage, 0x84), (.zeroPageX, 0x94), (.absolute, 0x8C)] ∧
  (∀ (i : Instr) (s : State), i.op = .sta → ∃ ea, effectiveAddress i.operand s = some ea ∧
    exec i s = .next { s with mem := memWrite s.mem ea s.a, pc := s.pc + lengthOf i.operand }) ∧
  (∀ (i : Instr) (s : State), i.op = .stx → ∃ ea, effectiveAddress i.operand s = some ea ∧
    exec i s = .next { s with mem := memWrite s.mem ea s.x, pc := s.pc + lengthOf i.operand }) ∧
  ∀ (i : Instr) (s : State), i.op = .sty → ∃ ea, effectiveAddress i.operand s = some ea ∧
    exec i s = .next { s with mem := memWrite s.mem ea s.y, pc := s.pc + lengthOf i.operand }

/-! ### Arithmetic, logic, compare, increment and decrement -/

/-- ADC and SBC in every form; the carry-in is decision D8 and SBC is decision D9. What the adder and the subtractor give is
`AddSubtractArithmetic`. -/
def Obligations.AddSubtractResults : Prop :=
  HasOpcodes .adc [(.immediate, 0x69), (.zeroPage, 0x65), (.zeroPageX, 0x75), (.absolute, 0x6D), (.absoluteX, 0x7D), (.absoluteY, 0x79), (.indexedIndirect, 0x61), (.indirectIndexed, 0x71)] ∧
  HasOpcodes .sbc [(.immediate, 0xE9), (.zeroPage, 0xE5), (.zeroPageX, 0xF5), (.absolute, 0xED), (.absoluteX, 0xFD), (.absoluteY, 0xF9), (.indexedIndirect, 0xE1), (.indirectIndexed, 0xF1)] ∧
  (∀ (i : Instr) (s : State), i.op = .adc → ∃ m, operandValue i.operand s = some m ∧
    let o := addC s.a m s.p.c
    exec i s = .next { s with a := o.r, p := { zn s.p o.r with c := o.c, v := o.v }, pc := s.pc + lengthOf i.operand }) ∧
  ∀ (i : Instr) (s : State), i.op = .sbc → ∃ m, operandValue i.operand s = some m ∧
    let o := subC s.a m s.p.c
    exec i s = .next { s with a := o.r, p := { zn s.p o.r with c := o.c, v := o.v }, pc := s.pc + lengthOf i.operand }

/-- R142 to R144: AND, ORA, EOR in every form. The rules are marked as general knowledge (log entry 9). -/
def Obligations.LogicResults : Prop :=
  HasOpcodes .and [(.immediate, 0x29), (.zeroPage, 0x25), (.zeroPageX, 0x35), (.absolute, 0x2D), (.absoluteX, 0x3D), (.absoluteY, 0x39), (.indexedIndirect, 0x21), (.indirectIndexed, 0x31)] ∧
  HasOpcodes .ora [(.immediate, 0x09), (.zeroPage, 0x05), (.zeroPageX, 0x15), (.absolute, 0x0D), (.absoluteX, 0x1D), (.absoluteY, 0x19), (.indexedIndirect, 0x01), (.indirectIndexed, 0x11)] ∧
  HasOpcodes .eor [(.immediate, 0x49), (.zeroPage, 0x45), (.zeroPageX, 0x55), (.absolute, 0x4D), (.absoluteX, 0x5D), (.absoluteY, 0x59), (.indexedIndirect, 0x41), (.indirectIndexed, 0x51)] ∧
  (∀ (i : Instr) (s : State), i.op = .and → ∃ m, operandValue i.operand s = some m ∧
    exec i s = .next { s with a := s.a &&& m, p := zn s.p (s.a &&& m), pc := s.pc + lengthOf i.operand }) ∧
  (∀ (i : Instr) (s : State), i.op = .ora → ∃ m, operandValue i.operand s = some m ∧
    exec i s = .next { s with a := s.a ||| m, p := zn s.p (s.a ||| m), pc := s.pc + lengthOf i.operand }) ∧
  ∀ (i : Instr) (s : State), i.op = .eor → ∃ m, operandValue i.operand s = some m ∧
    exec i s = .next { s with a := s.a ^^^ m, p := zn s.p (s.a ^^^ m), pc := s.pc + lengthOf i.operand }

/-- BIT in both forms; the rule is decision D10. -/
def Obligations.BitResult : Prop :=
  HasOpcodes .bit [(.zeroPage, 0x24), (.absolute, 0x2C)] ∧
  ∀ (i : Instr) (s : State), i.op = .bit → ∃ m, operandValue i.operand s = some m ∧
    exec i s = .next { s with p := { s.p with z := decide (s.a &&& m = 0), v := m.getLsbD 6, n := m.getLsbD 7 },
                              pc := s.pc + lengthOf i.operand }

/-- R146 to R148: CMP, CPX, CPY in every form. -/
def Obligations.CompareResults : Prop :=
  HasOpcodes .cmp [(.immediate, 0xC9), (.zeroPage, 0xC5), (.zeroPageX, 0xD5), (.absolute, 0xCD), (.absoluteX, 0xDD), (.absoluteY, 0xD9), (.indexedIndirect, 0xC1), (.indirectIndexed, 0xD1)] ∧
  HasOpcodes .cpx [(.immediate, 0xE0), (.zeroPage, 0xE4), (.absolute, 0xEC)] ∧
  HasOpcodes .cpy [(.immediate, 0xC0), (.zeroPage, 0xC4), (.absolute, 0xCC)] ∧
  (∀ (i : Instr) (s : State), i.op = .cmp → ∃ m, operandValue i.operand s = some m ∧
    exec i s = .next { s with p := czn s.p (decide (m.toNat ≤ s.a.toNat)) (s.a - m), pc := s.pc + lengthOf i.operand }) ∧
  (∀ (i : Instr) (s : State), i.op = .cpx → ∃ m, operandValue i.operand s = some m ∧
    exec i s = .next { s with p := czn s.p (decide (m.toNat ≤ s.x.toNat)) (s.x - m), pc := s.pc + lengthOf i.operand }) ∧
  ∀ (i : Instr) (s : State), i.op = .cpy → ∃ m, operandValue i.operand s = some m ∧
    exec i s = .next { s with p := czn s.p (decide (m.toNat ≤ s.y.toNat)) (s.y - m), pc := s.pc + lengthOf i.operand }

/-- R149, R150: INC and DEC in every form. The rules are marked as general knowledge (log entry 9). -/
def Obligations.MemoryIncDecResults : Prop :=
  HasOpcodes .inc [(.zeroPage, 0xE6), (.zeroPageX, 0xF6), (.absolute, 0xEE), (.absoluteX, 0xFE)] ∧
  HasOpcodes .dec [(.zeroPage, 0xC6), (.zeroPageX, 0xD6), (.absolute, 0xCE), (.absoluteX, 0xDE)] ∧
  (∀ (i : Instr) (s : State), i.op = .inc → ∃ ea, effectiveAddress i.operand s = some ea ∧
    exec i s = .next { s with mem := memWrite s.mem ea (memRead s.mem ea + 1), p := zn s.p (memRead s.mem ea + 1),
                              pc := s.pc + lengthOf i.operand }) ∧
  ∀ (i : Instr) (s : State), i.op = .dec → ∃ ea, effectiveAddress i.operand s = some ea ∧
    exec i s = .next { s with mem := memWrite s.mem ea (memRead s.mem ea - 1), p := zn s.p (memRead s.mem ea - 1),
                              pc := s.pc + lengthOf i.operand }

/-- R151 to R154: INX, INY, DEX, DEY. The rules are marked as general knowledge (log entry 9). -/
def Obligations.RegisterIncDecResults : Prop :=
  HasOpcodes .inx [(.implicit, 0xE8)] ∧
  HasOpcodes .iny [(.implicit, 0xC8)] ∧
  HasOpcodes .dex [(.implicit, 0xCA)] ∧
  HasOpcodes .dey [(.implicit, 0x88)] ∧
  ∀ s : State,
    exec .inx s = .next { s with x := s.x + 1, p := zn s.p (s.x + 1), pc := s.pc + 1 } ∧
    exec .iny s = .next { s with y := s.y + 1, p := zn s.p (s.y + 1), pc := s.pc + 1 } ∧
    exec .dex s = .next { s with x := s.x - 1, p := zn s.p (s.x - 1), pc := s.pc + 1 } ∧
    exec .dey s = .next { s with y := s.y - 1, p := zn s.p (s.y - 1), pc := s.pc + 1 }

/-! ### Shifts and rotates -/

/-- R170 to R173: ASL, LSR, ROL, ROR on the accumulator and in every memory form. -/
def Obligations.ShiftResults : Prop :=
  HasOpcodes .asl [(.accumulator, 0x0A), (.zeroPage, 0x06), (.zeroPageX, 0x16), (.absolute, 0x0E), (.absoluteX, 0x1E)] ∧
  HasOpcodes .lsr [(.accumulator, 0x4A), (.zeroPage, 0x46), (.zeroPageX, 0x56), (.absolute, 0x4E), (.absoluteX, 0x5E)] ∧
  HasOpcodes .rol [(.accumulator, 0x2A), (.zeroPage, 0x26), (.zeroPageX, 0x36), (.absolute, 0x2E), (.absoluteX, 0x3E)] ∧
  HasOpcodes .ror [(.accumulator, 0x6A), (.zeroPage, 0x66), (.zeroPageX, 0x76), (.absolute, 0x6E), (.absoluteX, 0x7E)] ∧
  (∀ s : State,
    let l := s.a <<< 1
    let r := s.a >>> 1
    let rl := s.a <<< 1 ||| (if s.p.c then 0x01 else 0x00)
    let rr := (if s.p.c then 0x80 else 0x00) ||| s.a >>> 1
    exec .aslAcc s = .next { s with a := l, p := czn s.p (s.a.getLsbD 7) l, pc := s.pc + 1 } ∧
    exec .lsrAcc s = .next { s with a := r, p := czn s.p (s.a.getLsbD 0) r, pc := s.pc + 1 } ∧
    exec .rolAcc s = .next { s with a := rl, p := czn s.p (s.a.getLsbD 7) rl, pc := s.pc + 1 } ∧
    exec .rorAcc s = .next { s with a := rr, p := czn s.p (s.a.getLsbD 0) rr, pc := s.pc + 1 }) ∧
  ∀ (i : Instr) (s : State), i.op ∈ [.asl, .lsr, .rol, .ror] → i.mode ≠ .accumulator →
    ∃ ea, effectiveAddress i.operand s = some ea ∧
      let v := memRead s.mem ea
      let l := v <<< 1
      let r := v >>> 1
      let rl := v <<< 1 ||| (if s.p.c then 0x01 else 0x00)
      let rr := (if s.p.c then 0x80 else 0x00) ||| v >>> 1
      let pc := s.pc + lengthOf i.operand
      (i.op = .asl → exec i s = .next { s with mem := memWrite s.mem ea l, p := czn s.p (v.getLsbD 7) l, pc := pc }) ∧
      (i.op = .lsr → exec i s = .next { s with mem := memWrite s.mem ea r, p := czn s.p (v.getLsbD 0) r, pc := pc }) ∧
      (i.op = .rol → exec i s = .next { s with mem := memWrite s.mem ea rl, p := czn s.p (v.getLsbD 7) rl, pc := pc }) ∧
      (i.op = .ror → exec i s = .next { s with mem := memWrite s.mem ea rr, p := czn s.p (v.getLsbD 0) rr, pc := pc })

/-! ### Control transfer -/

/-- R180 to R188, with the target of R93: the eight branches. The condition of each mnemonic is marked as general knowledge (log
entry 9). -/
def Obligations.BranchResults : Prop :=
  HasOpcodes .bcc [(.relative, 0x90)] ∧
  HasOpcodes .bcs [(.relative, 0xB0)] ∧
  HasOpcodes .beq [(.relative, 0xF0)] ∧
  HasOpcodes .bne [(.relative, 0xD0)] ∧
  HasOpcodes .bmi [(.relative, 0x30)] ∧
  HasOpcodes .bpl [(.relative, 0x10)] ∧
  HasOpcodes .bvc [(.relative, 0x50)] ∧
  HasOpcodes .bvs [(.relative, 0x70)] ∧
  ∀ (off : Byte) (s : State),
    let target := s.pc + 2 + (if off.getLsbD 7 then off.setWidth 16 + 0xFF00 else off.setWidth 16)
    let goes := fun (taken : Bool) => Host.Outcome.next { s with pc := if taken then target else s.pc + 2 }
    exec (.bcc off) s = goes (!s.p.c) ∧ exec (.bcs off) s = goes s.p.c ∧
    exec (.beq off) s = goes s.p.z ∧ exec (.bne off) s = goes (!s.p.z) ∧
    exec (.bmi off) s = goes s.p.n ∧ exec (.bpl off) s = goes (!s.p.n) ∧
    exec (.bvc off) s = goes (!s.p.v) ∧ exec (.bvs off) s = goes s.p.v

/-- The offset byte that R70 gives for a branch to a target (marked as derived) is the one whose target it is, and every offset byte
is given for its target. -/
def Obligations.BranchOffsetIsInverse : Prop :=
  (∀ (pc target : Word) (off : Byte), branchOffset pc target = some off → branchTarget off (pc + 2) = target) ∧
  ∀ (pc : Word) (off : Byte), branchOffset pc (branchTarget off (pc + 2)) = some off

/-- JMP in both forms; what the indirect form reads is `IndirectModesAddress` (decision D14). -/
def Obligations.JumpResult : Prop :=
  HasOpcodes .jmp [(.absolute, 0x4C), (.indirect, 0x6C)] ∧
  ∀ (w : Word) (s : State),
    exec (.jmpAbs w) s = .next { s with pc := w } ∧
    ∃ ea, effectiveAddress (.indirect w) s = some ea ∧ exec (.jmpInd w) s = .next { s with pc := ea }

/-- JSR: where it completes, and the two places where it faults under Fatal, with the first push standing at SP = 0x01. The order
of operand reads, the parameter and what a faulting push leaves are decisions D16, D5 and D6, and the fault record (R241) is
decision D7. -/
def Obligations.JsrResult : Prop :=
  HasOpcodes .jsr [(.absolute, 0x20)] ∧
  ∀ (w : Word) (s : State),
    (¬ (Fatal s ∧ s.sp.toNat ≤ 1) → exec (.jsr w) s = .next
      { s with mem := pushAt s (pushAt s s.mem s.sp (hi (s.pc + 2))) (s.sp - 1) (lo (s.pc + 2)), sp := s.sp - 2, pc := w }) ∧
    (Fatal s ∧ s.sp = 0 → FaultsAt (exec (.jsr w) s) (.stackExhaustion .push 0) s.pc { s with pc := s.pc + 3 }) ∧
    (Fatal s ∧ s.sp = 1 → FaultsAt (exec (.jsr w) s) (.stackExhaustion .push 0) s.pc
      { s with mem := pushAt s s.mem 1 (hi (s.pc + 2)), sp := 0, pc := s.pc + 3 })

/-- RTS, where it completes and where it faults under Fatal. The parameter and what a faulting pop leaves are decisions D5 and D6, and
the fault record (R241) is decision D7. -/
def Obligations.RtsResult : Prop :=
  HasOpcodes .rts [(.implicit, 0x60)] ∧
  ∀ s : State,
    (¬ (Fatal s ∧ 0xFE ≤ s.sp.toNat) → exec .rts s = .next
      { s with sp := s.sp + 2, pc := wordOf (stackAt s (s.sp + 2)) (stackAt s (s.sp + 1)) + 1 }) ∧
    (Fatal s ∧ s.sp = 0xFF → FaultsAt (exec .rts s) (.stackExhaustion .pop 0xFF) s.pc { s with pc := s.pc + 1 }) ∧
    (Fatal s ∧ s.sp = 0xFE → FaultsAt (exec .rts s) (.stackExhaustion .pop 0xFF) s.pc
      { s with sp := 0xFF, pc := s.pc + 1 })

/-- BRK: the trap entry, and the three places where it faults under Fatal, with the earlier pushes standing (R243). The rule is
decisions D11, D12 and D23; the parameter and what a faulting push leaves are decisions D5 and D6, and the fault record (R241) is
decision D7. -/
def Obligations.BrkResult : Prop :=
  HasOpcodes .brk [(.implicit, 0x00)] ∧
  ∀ s : State,
    let m1 := pushAt s s.mem s.sp (hi (s.pc + 2))
    let m2 := pushAt s m1 (s.sp - 1) (lo (s.pc + 2))
    let m3 := pushAt s m2 (s.sp - 2) (pByte s.p ||| 0x30)
    (¬ (Fatal s ∧ s.sp.toNat ≤ 2) → exec .brk s = .next
      { s with mem := m3, sp := s.sp - 3, p := { s.p with i := true }, pc := memReadWord m3 s.cfg.brkVector }) ∧
    (Fatal s ∧ s.sp = 0 → FaultsAt (exec .brk s) (.stackExhaustion .push 0) s.pc { s with pc := s.pc + 1 }) ∧
    (Fatal s ∧ s.sp = 1 → FaultsAt (exec .brk s) (.stackExhaustion .push 0) s.pc
      { s with mem := m1, sp := 0, pc := s.pc + 1 }) ∧
    (Fatal s ∧ s.sp = 2 → FaultsAt (exec .brk s) (.stackExhaustion .push 0) s.pc
      { s with mem := m2, sp := 0, pc := s.pc + 1 })

/-- RTI: the return, and the three places where it faults under Fatal, the flags already loaded at the last two. That U keeps its
value is decision D13, that B takes bit 4 D23; the parameter and what a faulting pop leaves are decisions D5 and D6, and the fault
record (R241) is decision D7. -/
def Obligations.RtiResult : Prop :=
  HasOpcodes .rti [(.implicit, 0x40)] ∧
  ∀ s : State,
    let p' := loadP s.p (stackAt s (s.sp + 1))
    (¬ (Fatal s ∧ 0xFD ≤ s.sp.toNat) → exec .rti s = .next
      { s with sp := s.sp + 3, p := p', pc := wordOf (stackAt s (s.sp + 3)) (stackAt s (s.sp + 2)) }) ∧
    (Fatal s ∧ s.sp = 0xFF → FaultsAt (exec .rti s) (.stackExhaustion .pop 0xFF) s.pc { s with pc := s.pc + 1 }) ∧
    (Fatal s ∧ (s.sp = 0xFE ∨ s.sp = 0xFD) → FaultsAt (exec .rti s) (.stackExhaustion .pop 0xFF) s.pc
      { s with sp := 0xFF, p := p', pc := s.pc + 1 })

/-! ### Stack instructions -/

/-- The byte form of P and what loading a byte makes of it: N V U B D I Z C, U not loaded. The layout is decision D1, U decision
D13, and that the stored B takes bit 4 decision D23. -/
def Obligations.StatusByteLayout : Prop :=
  (∀ p : Status,
    (pByte p).getLsbD 0 = p.c ∧ (pByte p).getLsbD 1 = p.z ∧ (pByte p).getLsbD 2 = p.i ∧ (pByte p).getLsbD 3 = p.d ∧
    (pByte p).getLsbD 4 = p.b ∧ (pByte p).getLsbD 5 = p.u ∧ (pByte p).getLsbD 6 = p.v ∧ (pByte p).getLsbD 7 = p.n) ∧
  ∀ (p : Status) (v : Byte), loadP p v =
    { c := v.getLsbD 0, z := v.getLsbD 1, i := v.getLsbD 2, d := v.getLsbD 3,
      b := v.getLsbD 4, u := p.u, v := v.getLsbD 6, n := v.getLsbD 7 }

/-- PHA and PLA, where they complete and where they fault. The parameter and what a faulting push or pop leaves are decisions D5
and D6, and the fault record (R241) is decision D7. -/
def Obligations.PhaPlaResults : Prop :=
  HasOpcodes .pha [(.implicit, 0x48)] ∧
  HasOpcodes .pla [(.implicit, 0x68)] ∧
  ∀ s : State,
    (¬ (Fatal s ∧ s.sp = 0) →
      exec .pha s = .next { s with mem := pushAt s s.mem s.sp s.a, sp := s.sp - 1, pc := s.pc + 1 }) ∧
    (Fatal s ∧ s.sp = 0 → FaultsAt (exec .pha s) (.stackExhaustion .push 0) s.pc { s with pc := s.pc + 1 }) ∧
    (¬ (Fatal s ∧ s.sp = 0xFF) → exec .pla s = .next
      { s with a := stackAt s (s.sp + 1), p := zn s.p (stackAt s (s.sp + 1)), sp := s.sp + 1, pc := s.pc + 1 }) ∧
    (Fatal s ∧ s.sp = 0xFF → FaultsAt (exec .pla s) (.stackExhaustion .pop 0xFF) s.pc { s with pc := s.pc + 1 })

/-- PHP and PLP, where they complete and where they fault. The pushed bits 4 and 5 and the flags loaded are decisions D12, D13 and
D23; the parameter and what a faulting push or pop leaves are decisions D5 and D6, and the fault record (R241) is decision D7. -/
def Obligations.PhpPlpResults : Prop :=
  HasOpcodes .php [(.implicit, 0x08)] ∧
  HasOpcodes .plp [(.implicit, 0x28)] ∧
  ∀ s : State,
    (¬ (Fatal s ∧ s.sp = 0) →
      exec .php s = .next { s with mem := pushAt s s.mem s.sp (pByte s.p ||| 0x30), sp := s.sp - 1, pc := s.pc + 1 }) ∧
    (Fatal s ∧ s.sp = 0 → FaultsAt (exec .php s) (.stackExhaustion .push 0) s.pc { s with pc := s.pc + 1 }) ∧
    (¬ (Fatal s ∧ s.sp = 0xFF) → exec .plp s = .next
      { s with p := loadP s.p (stackAt s (s.sp + 1)), sp := s.sp + 1, pc := s.pc + 1 }) ∧
    (Fatal s ∧ s.sp = 0xFF → FaultsAt (exec .plp s) (.stackExhaustion .pop 0xFF) s.pc { s with pc := s.pc + 1 })

/-! ### Transfers, flags and NOP -/

/-- R210 to R215: TAX, TAY, TXA, TYA, TSX write Z and N; TXS writes no flag. -/
def Obligations.TransferResults : Prop :=
  HasOpcodes .tax [(.implicit, 0xAA)] ∧
  HasOpcodes .tay [(.implicit, 0xA8)] ∧
  HasOpcodes .txa [(.implicit, 0x8A)] ∧
  HasOpcodes .tya [(.implicit, 0x98)] ∧
  HasOpcodes .tsx [(.implicit, 0xBA)] ∧
  HasOpcodes .txs [(.implicit, 0x9A)] ∧
  ∀ s : State,
    exec .tax s = .next { s with x := s.a, p := zn s.p s.a, pc := s.pc + 1 } ∧
    exec .tay s = .next { s with y := s.a, p := zn s.p s.a, pc := s.pc + 1 } ∧
    exec .txa s = .next { s with a := s.x, p := zn s.p s.x, pc := s.pc + 1 } ∧
    exec .tya s = .next { s with a := s.y, p := zn s.p s.y, pc := s.pc + 1 } ∧
    exec .tsx s = .next { s with x := s.sp, p := zn s.p s.sp, pc := s.pc + 1 } ∧
    exec .txs s = .next { s with sp := s.x, pc := s.pc + 1 }

/-- R220 to R227: CLC, SEC, CLI, SEI, CLD, SED, CLV, NOP. -/
def Obligations.FlagInstructionResults : Prop :=
  HasOpcodes .clc [(.implicit, 0x18)] ∧
  HasOpcodes .sec [(.implicit, 0x38)] ∧
  HasOpcodes .cli [(.implicit, 0x58)] ∧
  HasOpcodes .sei [(.implicit, 0x78)] ∧
  HasOpcodes .cld [(.implicit, 0xD8)] ∧
  HasOpcodes .sed [(.implicit, 0xF8)] ∧
  HasOpcodes .clv [(.implicit, 0xB8)] ∧
  HasOpcodes .nop [(.implicit, 0xEA)] ∧
  ∀ s : State,
    exec .clc s = .next { s with p := { s.p with c := false }, pc := s.pc + 1 } ∧
    exec .sec s = .next { s with p := { s.p with c := true }, pc := s.pc + 1 } ∧
    exec .cli s = .next { s with p := { s.p with i := false }, pc := s.pc + 1 } ∧
    exec .sei s = .next { s with p := { s.p with i := true }, pc := s.pc + 1 } ∧
    exec .cld s = .next { s with p := { s.p with d := false }, pc := s.pc + 1 } ∧
    exec .sed s = .next { s with p := { s.p with d := true }, pc := s.pc + 1 } ∧
    exec .clv s = .next { s with p := { s.p with v := false }, pc := s.pc + 1 } ∧
    exec .nop s = .next { s with pc := s.pc + 1 }

/-! ### Frames over all instructions -/

/-- Which instructions may write A, X, Y and SP (the table of R21, which is derived). None changes the run state, which only a fault
does (R31), or the parameters: that these stand in the state is the model's own choice (log entry 1). Where an
instruction names a flag, PC or memory it is not limited here. -/
def Obligations.RegisterFrame : Prop :=
  ∀ (i : Instr) (s t : State), exec i s = .next t →
    (t.a = s.a ∨ WritesA i) ∧
    (t.x = s.x ∨ i.op ∈ [.ldx, .inx, .dex, .tax, .tsx]) ∧
    (t.y = s.y ∨ i.op ∈ [.ldy, .iny, .dey, .tay]) ∧
    (t.sp = s.sp ∨ i.op ∈ .txs :: pushingOps ++ poppingOps) ∧
    t.cfg = s.cfg ∧ t.run = s.run

/-- Which instructions may write each flag (the table of R27, which is derived). How B is written is decision D23, that no
instruction writes U decision D13, that BRK sets I decision D11. -/
def Obligations.FlagFrame : Prop :=
  ∀ (i : Instr) (s t : State), exec i s = .next t →
    (t.p.c = s.p.c ∨ i.op ∈ [.adc, .sbc, .cmp, .cpx, .cpy, .asl, .lsr, .rol, .ror, .clc, .sec, .plp, .rti]) ∧
    (t.p.z = s.p.z ∨ i.op ∈ zWriters) ∧
    (t.p.i = s.p.i ∨ i.op ∈ [.sei, .cli, .brk, .plp, .rti]) ∧
    (t.p.d = s.p.d ∨ i.op ∈ [.sed, .cld, .plp, .rti]) ∧
    (t.p.b = s.p.b ∨ i.op ∈ [.plp, .rti]) ∧
    t.p.u = s.p.u ∧
    (t.p.v = s.p.v ∨ i.op ∈ [.adc, .sbc, .bit, .clv, .plp, .rti]) ∧
    (t.p.n = s.p.n ∨ i.op ∈ zWriters)

/-- An instruction that does not transfer control ends with PC past its bytes (R23), with 16-bit wrap. -/
def Obligations.PcPastInstruction : Prop :=
  ∀ (i : Instr) (s t : State), exec i s = .next t → i.op ∉ controlOps →
    t.pc = s.pc + BitVec.ofNat 16 (encode i).length

/-- Every byte of memory reads as before over an instruction that neither stores nor pushes, and over the accumulator forms of
the shifts and rotates. -/
def Obligations.NonStoringMemoryFrame : Prop :=
  ∀ (i : Instr) (s t : State), exec i s = .next t →
    i.op ∉ pushingOps → (i.op ∉ storingOps ∨ i.mode = .accumulator) →
    ∀ b : Word, memRead t.mem b = memRead s.mem b

/-- Only the stored bytes change: over STA, STX, STY, INC, DEC and the memory forms of ASL, LSR, ROL, ROR, the byte at the effective
address; over a push, one stack byte for PHA and PHP, two for JSR, three for BRK (decision D11). Memory in
canonical form is the model's own premise (log entry 3). -/
def Obligations.StoringMemoryFrame : Prop :=
  ∀ (i : Instr) (s t : State), s.mem.wf = true → exec i s = .next t → ∀ b : Word,
    (i.op ∈ storingOps → ∀ a : Word, effectiveAddress i.operand s = some a → b ≠ a → memRead t.mem b = memRead s.mem b) ∧
    (i.op ∈ [.pha, .php] → b ≠ stackAddr s.cfg s.sp → memRead t.mem b = memRead s.mem b) ∧
    (i.op = .jsr → b ≠ stackAddr s.cfg s.sp → b ≠ stackAddr s.cfg (s.sp - 1) → memRead t.mem b = memRead s.mem b) ∧
    (i.op = .brk → b ≠ stackAddr s.cfg s.sp → b ≠ stackAddr s.cfg (s.sp - 1) → b ≠ stackAddr s.cfg (s.sp - 2) →
      memRead t.mem b = memRead s.mem b)

/-- The stack byte is inside the stack page, at the index SP (R24, R49): whatever the page, no stack access leaves it. The
parameter is decision D2. -/
def Obligations.StackStaysInPage : Prop :=
  ∀ (cfg : Config) (sp : Byte),
    (stackAddr cfg sp).toNat = cfg.stackBase.toNat + sp.toNat ∧ cfg.stackBase.toNat % 256 = 0 ∧
    ∀ sp' : Byte, stackAddr cfg sp = stackAddr cfg sp' → sp = sp'

/-! ### Rules of the whole machine -/

/-- Every next state of an instruction and of a step keeps the invariant, from every state that has it, and so does a run of any
length with no fault. The canonical form of memory is the model's own (log entry 3); that U stays 0 rests on decision D13. -/
def Obligations.StepKeepsInvariant : Prop :=
  (∀ (i : Instr) (s t : State), Inv s → exec i s = .next t → Inv t) ∧
  (∀ s t : State, Inv s → step s = .next t → Inv t) ∧
  ∀ (n : Nat) (s t : State), Inv s → RunsClean n s t → Inv t

/-- Construction from any parameters and any image in canonical form gives the values of R33 and the invariant. PC is decisions
D3 and D4, the image decision D18, SP at the top index is derived. `State.reset` is such a construction; its PC 0x0600 and its
all-zero image are the model's choices (log entries 2 and 3), and nothing here rests on them. -/
def Obligations.ConstructionValues : Prop :=
  ∀ (cfg : Config) (image : Memory), image.wf = true →
    let s := construct cfg image
    s.a = 0 ∧ s.x = 0 ∧ s.y = 0 ∧ s.sp = 0xFF ∧ pByte s.p = 0 ∧ s.run = .running ∧ s.cfg = cfg ∧
    (∀ b : Word, memRead s.mem b = memRead image b) ∧
    (cfg.startMode = .fixedStart → s.pc = cfg.codeStart) ∧
    (cfg.startMode = .vector → s.pc = wordOf (memRead image (cfg.resetVector + 1)) (memRead image cfg.resetVector)) ∧
    Inv s ∧ State.reset = construct Config.default []

/-- R25: no instruction reads U. Two states that differ only in U go to states that differ only in U. That a pushed bit 5 is 1 whatever
U is, is decision D12, that PLP and RTI leave U decision D13. -/
def Obligations.UnusedFlagIsNotRead : Prop :=
  ∀ (i : Instr) (s t : State) (u : Bool), exec i s = .next t →
    exec i { s with p := { s.p with u := u } } = .next { t with p := { t.p with u := u } }

/-- No instruction reads B, whose pushed bit is 1 (decisions D23 and D12), and I masks nothing (decision D17): two states that
differ in B go to states that agree but for B, and, over every instruction but PHP and BRK, which push I, two states that differ in I
go to states that agree but for I. -/
def Obligations.BreakIsNotReadAndInterruptMasksNothing : Prop :=
  (∀ (i : Instr) (s t : State) (b : Bool), exec i s = .next t →
    exec i { s with p := { s.p with b := b } } =
      .next { t with p := { t.p with b := if i.op ∈ [.plp, .rti] then t.p.b else b } }) ∧
  ∀ (i : Instr) (s t : State) (x : Bool), exec i s = .next t → i.op ∉ [.php, .brk] →
    exec i { s with p := { s.p with i := x } } =
      .next { t with p := { t.p with i := if i.op ∈ [.sei, .cli, .plp, .rti] then t.p.i else x } }

/-- Faults of instructions: under Wrap there is none (every instruction comes to a next state, whatever its operand); under Fatal
only a pushing or popping instruction faults, with a push fault (code 2) at SP = 0x00 or a pop fault (code 3) at SP = 0xFF. The
parameter is decision D5, that a faulting push or pop leaves SP as it was D6, the codes D20. -/
def Obligations.OnlyTheStackFaults : Prop :=
  (∀ (i : Instr) (s : State), ¬ Fatal s → ∃ t, exec i s = .next t) ∧
  (∀ (i : Instr) (s : State), i.op ∉ pushingOps ++ poppingOps → ∃ t, exec i s = .next t) ∧
  ∀ (i : Instr) (s : State) (f : Fault), exec i s = .fault f →
    Fatal s ∧
    ((i.op ∈ pushingOps ∧ f.record.cause = .stackExhaustion .push 0x00 ∧ f.record.cause.code = 2 ∧ f.left.sp = 0x00) ∨
     (i.op ∈ poppingOps ∧ f.record.cause = .stackExhaustion .pop 0xFF ∧ f.record.cause.code = 3 ∧ f.left.sp = 0xFF))

/-- A call and its return (R192): once the subroutine has left SP and the two stacked bytes as it found them, RTS resumes after the
JSR and leaves A, X, Y and the flags alone. The condition on the subroutine is derived. -/
def Obligations.CallThenReturn : Prop :=
  ∀ (w : Word) (s t u : State), s.mem.wf = true → exec (.jsr w) s = .next t →
    u.sp = t.sp → u.cfg = t.cfg → stackAt u (t.sp + 1) = stackAt t (t.sp + 1) → stackAt u (t.sp + 2) = stackAt t (t.sp + 2) →
    exec .rts u = .next { u with sp := s.sp, pc := s.pc + 3 }

/-- A software interrupt and its return (R247): once the handler has left SP and the three stacked bytes as it found them, RTI
restores P but for B, which becomes 1, and U, which stays, and resumes two bytes after the BRK. The rule marks this as derived;
it rests on decisions D11, D12, D13 and D23. -/
def Obligations.InterruptThenReturn : Prop :=
  ∀ s t u : State, s.mem.wf = true → exec .brk s = .next t →
    u.sp = t.sp → u.cfg = t.cfg → stackAt u (t.sp + 1) = stackAt t (t.sp + 1) →
    stackAt u (t.sp + 2) = stackAt t (t.sp + 2) → stackAt u (t.sp + 3) = stackAt t (t.sp + 3) →
    exec .rti u = .next { u with sp := s.sp, pc := s.pc + 2, p := { s.p with b := true, u := u.p.u } }

/-- Last in, first out: two bytes pushed by PHA come back by PLA in the reverse order, and SP returns. The condition on SP
is decision D5. -/
def Obligations.PushesPopInReverse : Prop :=
  ∀ (s : State) (b1 b2 : Byte), s.mem.wf = true → ¬ (Fatal s ∧ s.sp.toNat ≤ 1) →
    ∃ t1 t2 t3 t4, exec .pha { s with a := b1 } = .next t1 ∧ exec .pha { t1 with a := b2 } = .next t2 ∧
      exec .pla t2 = .next t3 ∧ t3.a = b2 ∧ exec .pla t3 = .next t4 ∧ t4.a = b1 ∧ t4.sp = s.sp
end

