-- ==== Sys2Proof/Laws/State.lean ====
section
/-! SUPPORT. Each field after each update of the state, so that no later proof unfolds one. -/

namespace Sys2Proof.Machine

/-! `State.setA` -/

@[simp] theorem State.setA_a (s : State) (v : Byte) : (s.setA v).a = v := rfl
@[simp] theorem State.setA_x (s : State) (v : Byte) : (s.setA v).x = s.x := rfl
@[simp] theorem State.setA_y (s : State) (v : Byte) : (s.setA v).y = s.y := rfl
@[simp] theorem State.setA_sp (s : State) (v : Byte) : (s.setA v).sp = s.sp := rfl
@[simp] theorem State.setA_pc (s : State) (v : Byte) : (s.setA v).pc = s.pc := rfl
@[simp] theorem State.setA_p (s : State) (v : Byte) : (s.setA v).p = s.p := rfl
@[simp] theorem State.setA_mem (s : State) (v : Byte) : (s.setA v).mem = s.mem := rfl
@[simp] theorem State.setA_run (s : State) (v : Byte) : (s.setA v).run = s.run := rfl
@[simp] theorem State.setA_cfg (s : State) (v : Byte) : (s.setA v).cfg = s.cfg := rfl

/-! `State.setX` -/

@[simp] theorem State.setX_a (s : State) (v : Byte) : (s.setX v).a = s.a := rfl
@[simp] theorem State.setX_x (s : State) (v : Byte) : (s.setX v).x = v := rfl
@[simp] theorem State.setX_y (s : State) (v : Byte) : (s.setX v).y = s.y := rfl
@[simp] theorem State.setX_sp (s : State) (v : Byte) : (s.setX v).sp = s.sp := rfl
@[simp] theorem State.setX_pc (s : State) (v : Byte) : (s.setX v).pc = s.pc := rfl
@[simp] theorem State.setX_p (s : State) (v : Byte) : (s.setX v).p = s.p := rfl
@[simp] theorem State.setX_mem (s : State) (v : Byte) : (s.setX v).mem = s.mem := rfl
@[simp] theorem State.setX_run (s : State) (v : Byte) : (s.setX v).run = s.run := rfl
@[simp] theorem State.setX_cfg (s : State) (v : Byte) : (s.setX v).cfg = s.cfg := rfl

/-! `State.setY` -/

@[simp] theorem State.setY_a (s : State) (v : Byte) : (s.setY v).a = s.a := rfl
@[simp] theorem State.setY_x (s : State) (v : Byte) : (s.setY v).x = s.x := rfl
@[simp] theorem State.setY_y (s : State) (v : Byte) : (s.setY v).y = v := rfl
@[simp] theorem State.setY_sp (s : State) (v : Byte) : (s.setY v).sp = s.sp := rfl
@[simp] theorem State.setY_pc (s : State) (v : Byte) : (s.setY v).pc = s.pc := rfl
@[simp] theorem State.setY_p (s : State) (v : Byte) : (s.setY v).p = s.p := rfl
@[simp] theorem State.setY_mem (s : State) (v : Byte) : (s.setY v).mem = s.mem := rfl
@[simp] theorem State.setY_run (s : State) (v : Byte) : (s.setY v).run = s.run := rfl
@[simp] theorem State.setY_cfg (s : State) (v : Byte) : (s.setY v).cfg = s.cfg := rfl

/-! `State.setSp` -/

@[simp] theorem State.setSp_a (s : State) (v : Byte) : (s.setSp v).a = s.a := rfl
@[simp] theorem State.setSp_x (s : State) (v : Byte) : (s.setSp v).x = s.x := rfl
@[simp] theorem State.setSp_y (s : State) (v : Byte) : (s.setSp v).y = s.y := rfl
@[simp] theorem State.setSp_sp (s : State) (v : Byte) : (s.setSp v).sp = v := rfl
@[simp] theorem State.setSp_pc (s : State) (v : Byte) : (s.setSp v).pc = s.pc := rfl
@[simp] theorem State.setSp_p (s : State) (v : Byte) : (s.setSp v).p = s.p := rfl
@[simp] theorem State.setSp_mem (s : State) (v : Byte) : (s.setSp v).mem = s.mem := rfl
@[simp] theorem State.setSp_run (s : State) (v : Byte) : (s.setSp v).run = s.run := rfl
@[simp] theorem State.setSp_cfg (s : State) (v : Byte) : (s.setSp v).cfg = s.cfg := rfl

/-! `State.setPc` -/

@[simp] theorem State.setPc_a (s : State) (w : Word) : (s.setPc w).a = s.a := rfl
@[simp] theorem State.setPc_x (s : State) (w : Word) : (s.setPc w).x = s.x := rfl
@[simp] theorem State.setPc_y (s : State) (w : Word) : (s.setPc w).y = s.y := rfl
@[simp] theorem State.setPc_sp (s : State) (w : Word) : (s.setPc w).sp = s.sp := rfl
@[simp] theorem State.setPc_pc (s : State) (w : Word) : (s.setPc w).pc = w := rfl
@[simp] theorem State.setPc_p (s : State) (w : Word) : (s.setPc w).p = s.p := rfl
@[simp] theorem State.setPc_mem (s : State) (w : Word) : (s.setPc w).mem = s.mem := rfl
@[simp] theorem State.setPc_run (s : State) (w : Word) : (s.setPc w).run = s.run := rfl
@[simp] theorem State.setPc_cfg (s : State) (w : Word) : (s.setPc w).cfg = s.cfg := rfl

/-! `State.setP` -/

@[simp] theorem State.setP_a (s : State) (p : Status) : (s.setP p).a = s.a := rfl
@[simp] theorem State.setP_x (s : State) (p : Status) : (s.setP p).x = s.x := rfl
@[simp] theorem State.setP_y (s : State) (p : Status) : (s.setP p).y = s.y := rfl
@[simp] theorem State.setP_sp (s : State) (p : Status) : (s.setP p).sp = s.sp := rfl
@[simp] theorem State.setP_pc (s : State) (p : Status) : (s.setP p).pc = s.pc := rfl
@[simp] theorem State.setP_p (s : State) (p : Status) : (s.setP p).p = p := rfl
@[simp] theorem State.setP_mem (s : State) (p : Status) : (s.setP p).mem = s.mem := rfl
@[simp] theorem State.setP_run (s : State) (p : Status) : (s.setP p).run = s.run := rfl
@[simp] theorem State.setP_cfg (s : State) (p : Status) : (s.setP p).cfg = s.cfg := rfl

/-! `State.setMem` -/

@[simp] theorem State.setMem_a (s : State) (m : Memory) : (s.setMem m).a = s.a := rfl
@[simp] theorem State.setMem_x (s : State) (m : Memory) : (s.setMem m).x = s.x := rfl
@[simp] theorem State.setMem_y (s : State) (m : Memory) : (s.setMem m).y = s.y := rfl
@[simp] theorem State.setMem_sp (s : State) (m : Memory) : (s.setMem m).sp = s.sp := rfl
@[simp] theorem State.setMem_pc (s : State) (m : Memory) : (s.setMem m).pc = s.pc := rfl
@[simp] theorem State.setMem_p (s : State) (m : Memory) : (s.setMem m).p = s.p := rfl
@[simp] theorem State.setMem_mem (s : State) (m : Memory) : (s.setMem m).mem = m := rfl
@[simp] theorem State.setMem_run (s : State) (m : Memory) : (s.setMem m).run = s.run := rfl
@[simp] theorem State.setMem_cfg (s : State) (m : Memory) : (s.setMem m).cfg = s.cfg := rfl

/-! `State.setRun` -/

@[simp] theorem State.setRun_a (s : State) (r : RunState) : (s.setRun r).a = s.a := rfl
@[simp] theorem State.setRun_x (s : State) (r : RunState) : (s.setRun r).x = s.x := rfl
@[simp] theorem State.setRun_y (s : State) (r : RunState) : (s.setRun r).y = s.y := rfl
@[simp] theorem State.setRun_sp (s : State) (r : RunState) : (s.setRun r).sp = s.sp := rfl
@[simp] theorem State.setRun_pc (s : State) (r : RunState) : (s.setRun r).pc = s.pc := rfl
@[simp] theorem State.setRun_p (s : State) (r : RunState) : (s.setRun r).p = s.p := rfl
@[simp] theorem State.setRun_mem (s : State) (r : RunState) : (s.setRun r).mem = s.mem := rfl
@[simp] theorem State.setRun_run (s : State) (r : RunState) : (s.setRun r).run = r := rfl
@[simp] theorem State.setRun_cfg (s : State) (r : RunState) : (s.setRun r).cfg = s.cfg := rfl

/-! `State.past` -/

@[simp] theorem State.past_a (s : State) (o : Operand) : (s.past o).a = s.a := rfl
@[simp] theorem State.past_x (s : State) (o : Operand) : (s.past o).x = s.x := rfl
@[simp] theorem State.past_y (s : State) (o : Operand) : (s.past o).y = s.y := rfl
@[simp] theorem State.past_sp (s : State) (o : Operand) : (s.past o).sp = s.sp := rfl
@[simp] theorem State.past_pc (s : State) (o : Operand) : (s.past o).pc = s.pc + lengthOf o := rfl
@[simp] theorem State.past_p (s : State) (o : Operand) : (s.past o).p = s.p := rfl
@[simp] theorem State.past_mem (s : State) (o : Operand) : (s.past o).mem = s.mem := rfl
@[simp] theorem State.past_run (s : State) (o : Operand) : (s.past o).run = s.run := rfl
@[simp] theorem State.past_cfg (s : State) (o : Operand) : (s.past o).cfg = s.cfg := rfl

/-! `State.store` -/

@[simp] theorem State.store_a (s : State) (addr : Word) (v : Byte) : (s.store addr v).a = s.a := rfl
@[simp] theorem State.store_x (s : State) (addr : Word) (v : Byte) : (s.store addr v).x = s.x := rfl
@[simp] theorem State.store_y (s : State) (addr : Word) (v : Byte) : (s.store addr v).y = s.y := rfl
@[simp] theorem State.store_sp (s : State) (addr : Word) (v : Byte) : (s.store addr v).sp = s.sp := rfl
@[simp] theorem State.store_pc (s : State) (addr : Word) (v : Byte) : (s.store addr v).pc = s.pc := rfl
@[simp] theorem State.store_p (s : State) (addr : Word) (v : Byte) : (s.store addr v).p = s.p := rfl
@[simp] theorem State.store_mem (s : State) (addr : Word) (v : Byte) : (s.store addr v).mem = memWrite s.mem addr v := rfl
@[simp] theorem State.store_run (s : State) (addr : Word) (v : Byte) : (s.store addr v).run = s.run := rfl
@[simp] theorem State.store_cfg (s : State) (addr : Word) (v : Byte) : (s.store addr v).cfg = s.cfg := rfl

/-! `State.pushed` -/

@[simp] theorem State.pushed_a (s : State) (v : Byte) : (s.pushed v).a = s.a := rfl
@[simp] theorem State.pushed_x (s : State) (v : Byte) : (s.pushed v).x = s.x := rfl
@[simp] theorem State.pushed_y (s : State) (v : Byte) : (s.pushed v).y = s.y := rfl
@[simp] theorem State.pushed_sp (s : State) (v : Byte) : (s.pushed v).sp = s.sp - 1 := rfl
@[simp] theorem State.pushed_pc (s : State) (v : Byte) : (s.pushed v).pc = s.pc := rfl
@[simp] theorem State.pushed_p (s : State) (v : Byte) : (s.pushed v).p = s.p := rfl
@[simp] theorem State.pushed_mem (s : State) (v : Byte) : (s.pushed v).mem = memWrite s.mem (stackAddr s.cfg s.sp) v := rfl
@[simp] theorem State.pushed_run (s : State) (v : Byte) : (s.pushed v).run = s.run := rfl
@[simp] theorem State.pushed_cfg (s : State) (v : Byte) : (s.pushed v).cfg = s.cfg := rfl

/-! `State.popped` -/

@[simp] theorem State.popped_a (s : State) : (s.popped).a = s.a := rfl
@[simp] theorem State.popped_x (s : State) : (s.popped).x = s.x := rfl
@[simp] theorem State.popped_y (s : State) : (s.popped).y = s.y := rfl
@[simp] theorem State.popped_sp (s : State) : (s.popped).sp = s.sp + 1 := rfl
@[simp] theorem State.popped_pc (s : State) : (s.popped).pc = s.pc := rfl
@[simp] theorem State.popped_p (s : State) : (s.popped).p = s.p := rfl
@[simp] theorem State.popped_mem (s : State) : (s.popped).mem = s.mem := rfl
@[simp] theorem State.popped_run (s : State) : (s.popped).run = s.run := rfl
@[simp] theorem State.popped_cfg (s : State) : (s.popped).cfg = s.cfg := rfl

/-! `State.writeLoc` -/

@[simp] theorem State.writeLoc_x (s : State) (l : Loc) (v : Byte) : (s.writeLoc l v).x = s.x := by
  cases l <;> rfl
@[simp] theorem State.writeLoc_y (s : State) (l : Loc) (v : Byte) : (s.writeLoc l v).y = s.y := by
  cases l <;> rfl
@[simp] theorem State.writeLoc_sp (s : State) (l : Loc) (v : Byte) : (s.writeLoc l v).sp = s.sp := by
  cases l <;> rfl
@[simp] theorem State.writeLoc_pc (s : State) (l : Loc) (v : Byte) : (s.writeLoc l v).pc = s.pc := by
  cases l <;> rfl
@[simp] theorem State.writeLoc_p (s : State) (l : Loc) (v : Byte) : (s.writeLoc l v).p = s.p := by
  cases l <;> rfl
@[simp] theorem State.writeLoc_run (s : State) (l : Loc) (v : Byte) : (s.writeLoc l v).run = s.run := by
  cases l <;> rfl
@[simp] theorem State.writeLoc_cfg (s : State) (l : Loc) (v : Byte) : (s.writeLoc l v).cfg = s.cfg := by
  cases l <;> rfl

@[simp] theorem State.writeLoc_regA (s : State) (v : Byte) : s.writeLoc .regA v = s.setA v := rfl

@[simp] theorem State.writeLoc_mem (s : State) (ea : Word) (v : Byte) : s.writeLoc (.mem ea) v = s.store ea v := rfl

/-! Flag outputs written into P: the flags each leaves as they were. -/

@[simp] theorem Status.withZN_c (p : Status) (o : Byte) : (p.withZN o).c = p.c := rfl
@[simp] theorem Status.withZN_i (p : Status) (o : Byte) : (p.withZN o).i = p.i := rfl
@[simp] theorem Status.withZN_d (p : Status) (o : Byte) : (p.withZN o).d = p.d := rfl
@[simp] theorem Status.withZN_b (p : Status) (o : Byte) : (p.withZN o).b = p.b := rfl
@[simp] theorem Status.withZN_u (p : Status) (o : Byte) : (p.withZN o).u = p.u := rfl
@[simp] theorem Status.withZN_v (p : Status) (o : Byte) : (p.withZN o).v = p.v := rfl
@[simp] theorem Status.withSum_i (p : Status) (o : Sum) : (p.withSum o).i = p.i := rfl
@[simp] theorem Status.withSum_d (p : Status) (o : Sum) : (p.withSum o).d = p.d := rfl
@[simp] theorem Status.withSum_b (p : Status) (o : Sum) : (p.withSum o).b = p.b := rfl
@[simp] theorem Status.withSum_u (p : Status) (o : Sum) : (p.withSum o).u = p.u := rfl
@[simp] theorem Status.withCompared_i (p : Status) (o : Compared) : (p.withCompared o).i = p.i := rfl
@[simp] theorem Status.withCompared_d (p : Status) (o : Compared) : (p.withCompared o).d = p.d := rfl
@[simp] theorem Status.withCompared_b (p : Status) (o : Compared) : (p.withCompared o).b = p.b := rfl
@[simp] theorem Status.withCompared_u (p : Status) (o : Compared) : (p.withCompared o).u = p.u := rfl
@[simp] theorem Status.withCompared_v (p : Status) (o : Compared) : (p.withCompared o).v = p.v := rfl
@[simp] theorem Status.withBitTested_c (p : Status) (o : BitTested) : (p.withBitTested o).c = p.c := rfl
@[simp] theorem Status.withBitTested_i (p : Status) (o : BitTested) : (p.withBitTested o).i = p.i := rfl
@[simp] theorem Status.withBitTested_d (p : Status) (o : BitTested) : (p.withBitTested o).d = p.d := rfl
@[simp] theorem Status.withBitTested_b (p : Status) (o : BitTested) : (p.withBitTested o).b = p.b := rfl
@[simp] theorem Status.withBitTested_u (p : Status) (o : BitTested) : (p.withBitTested o).u = p.u := rfl
@[simp] theorem Status.withShifted_i (p : Status) (o : Shifted) : (p.withShifted o).i = p.i := rfl
@[simp] theorem Status.withShifted_d (p : Status) (o : Shifted) : (p.withShifted o).d = p.d := rfl
@[simp] theorem Status.withShifted_b (p : Status) (o : Shifted) : (p.withShifted o).b = p.b := rfl
@[simp] theorem Status.withShifted_u (p : Status) (o : Shifted) : (p.withShifted o).u = p.u := rfl
@[simp] theorem Status.withShifted_v (p : Status) (o : Shifted) : (p.withShifted o).v = p.v := rfl

/-- Loading P from a byte leaves U as it was (46_stack.md R203). -/
@[simp] theorem loadP_u (p : Status) (v : Byte) : (loadP p v).u = p.u := rfl

end Sys2Proof.Machine
end

