-- ==== Sys2Proof/Laws/Ops.lean ====
section
/-! SUPPORT. What each shared operation can do, said once: the cases of its outcome, and what must hold when a next state
comes out. Each operation hands its result to `next`, so the lemmas say with which result and state. -/

namespace Sys2Proof.Machine

/-- Raising a fault is a fault with its record, and the state it leaves is halted with that record. -/
theorem raise_eq (cause : FaultCause) (pc0 : Word) (s : State) :
    ∃ f, raise cause pc0 s = .fault f ∧ f.record = recordOf cause pc0 s ∧
      f.left = s.setRun (.halted (recordOf cause pc0 s)) := by
  refine ⟨_, rfl, ?_, ?_⟩ <;> rcases cause with _ | ⟨_ | _, _⟩ | _ <;> rfl

/-- Raising a fault gives no next state. -/
theorem raise_ne_next {cause : FaultCause} {pc0 : Word} {s t : State} : raise cause pc0 s ≠ .next t := nofun

/-- Raising a fault is no refusal. -/
theorem raise_ne_refused {cause : FaultCause} {pc0 : Word} {s : State} {r : Refusal} : raise cause pc0 s ≠ .refused r :=
  nofun

/-- A push at the bound is the fault. -/
theorem pushByte_of_faults {pc0 : Word} {v : Byte} {s : State} {next : State → Out} (h : pushFaults s = true) :
    pushByte pc0 v s next = raise (.stackExhaustion .push s.sp) pc0 s := if_pos h

/-- A push elsewhere goes on with the byte pushed. -/
theorem pushByte_of_admitted {pc0 : Word} {v : Byte} {s : State} {next : State → Out} (h : pushFaults s = false) :
    pushByte pc0 v s next = next (s.pushed v) := if_neg (by simp [h])

/-- A push that comes to a next state was admitted. -/
theorem pushByte_next {pc0 : Word} {v : Byte} {s t : State} {next : State → Out}
    (h : pushByte pc0 v s next = .next t) : pushFaults s = false ∧ next (s.pushed v) = .next t := by
  unfold pushByte at h
  split at h
  · exact absurd h raise_ne_next
  · exact ⟨Bool.eq_false_iff.mpr ‹_›, h⟩

/-- A pop at the bound is the fault. -/
theorem popByte_of_faults {pc0 : Word} {s : State} {next : Byte → State → Out} (h : popFaults s = true) :
    popByte pc0 s next = raise (.stackExhaustion .pop s.sp) pc0 s := if_pos h

/-- A pop elsewhere goes on with the byte at the incremented stack pointer. -/
theorem popByte_of_admitted {pc0 : Word} {s : State} {next : Byte → State → Out} (h : popFaults s = false) :
    popByte pc0 s next = next s.popped.stackByte s.popped := if_neg (by simp [h])

/-- A pop that comes to a next state was admitted. -/
theorem popByte_next {pc0 : Word} {s t : State} {next : Byte → State → Out}
    (h : popByte pc0 s next = .next t) : popFaults s = false ∧ next s.popped.stackByte s.popped = .next t := by
  unfold popByte at h
  split at h
  · exact absurd h raise_ne_next
  · exact ⟨Bool.eq_false_iff.mpr ‹_›, h⟩

/-- A 16-bit push that comes to a next state was admitted twice. -/
theorem pushWord_next {pc0 : Word} {w : Word} {s t : State} {next : State → Out}
    (h : pushWord pc0 w s next = .next t) :
    pushFaults s = false ∧ pushFaults (s.pushed (hi w)) = false ∧
      next ((s.pushed (hi w)).pushed (lo w)) = .next t := by
  obtain ⟨h1, h⟩ := pushByte_next h
  exact ⟨h1, pushByte_next h⟩

/-- A 16-bit pop that comes to a next state was admitted twice. -/
theorem popWord_next {pc0 : Word} {s t : State} {next : Word → State → Out}
    (h : popWord pc0 s next = .next t) :
    popFaults s = false ∧ popFaults s.popped = false ∧
      next (wordOf s.popped.popped.stackByte s.popped.stackByte) s.popped.popped = .next t := by
  obtain ⟨h1, h⟩ := popByte_next h
  exact ⟨h1, popByte_next h⟩

/-- Taking the interrupt and coming to a next state: three admitted pushes, I set, PC from the vector. -/
theorem takeInterrupt_next {pc0 : Word} {s t : State} (h : takeInterrupt pc0 s = .next t) :
    let s2 := ((s.pushed (hi (s.pc + 1))).pushed (lo (s.pc + 1))).pushed (pushedStatus s.p)
    pushFaults s = false ∧ pushFaults (s.pushed (hi (s.pc + 1))) = false ∧
      pushFaults ((s.pushed (hi (s.pc + 1))).pushed (lo (s.pc + 1))) = false ∧
      t = (s2.setP { s2.p with i := true }).setPc (memReadWord s2.mem s2.cfg.brkVector) := by
  obtain ⟨h1, h2, h⟩ := pushWord_next h
  obtain ⟨h3, h⟩ := pushByte_next h
  exact ⟨h1, h2, h3, (Host.Outcome.next.inj h).symm⟩

/-- Returning from the interrupt and coming to a next state: three admitted pops, P loaded from the first, PC the word
of the other two. -/
theorem returnFromInterrupt_next {pc0 : Word} {s t : State} (h : returnFromInterrupt pc0 s = .next t) :
    let s1 := s.popped.setP (loadP s.p s.popped.stackByte)
    popFaults s = false ∧ popFaults s1 = false ∧ popFaults s1.popped = false ∧
      t = s1.popped.popped.setPc (wordOf s1.popped.popped.stackByte s1.popped.stackByte) := by
  obtain ⟨h1, h⟩ := popByte_next h
  obtain ⟨h2, h3, h⟩ := popWord_next h
  exact ⟨h1, h2, h3, (Host.Outcome.next.inj h).symm⟩

/-- An address that is resolved and comes to a next state was there. -/
theorem resolveAddress_next {o : Operand} {s t : State} {next : Word → State → Out}
    (h : resolveAddress o s next = .next t) :
    ∃ ea, effectiveAddress o s = some ea ∧ next ea (s.past o) = .next t := by
  unfold resolveAddress at h
  split at h
  · exact ⟨_, ‹_›, h⟩
  · exact absurd h raise_ne_next

/-- An address that is there is resolved. -/
theorem resolveAddress_of_some {o : Operand} {s : State} {next : Word → State → Out} {ea : Word}
    (h : effectiveAddress o s = some ea) : resolveAddress o s next = next ea (s.past o) := by
  simp [resolveAddress, h]

/-- A value that is resolved and comes to a next state was there. -/
theorem resolveValue_next {o : Operand} {s t : State} {next : Byte → State → Out}
    (h : resolveValue o s next = .next t) :
    ∃ v, operandValue o s = some v ∧ next v (s.past o) = .next t := by
  unfold resolveValue at h
  split at h
  · exact ⟨_, ‹_›, h⟩
  · exact absurd h raise_ne_next

/-- A value that is there is resolved. -/
theorem resolveValue_of_some {o : Operand} {s : State} {next : Byte → State → Out} {v : Byte}
    (h : operandValue o s = some v) : resolveValue o s next = next v (s.past o) := by
  simp [resolveValue, h]

/-- A location that is resolved and comes to a next state was there. -/
theorem resolveLocation_next {o : Operand} {s t : State} {next : Loc → State → Out}
    (h : resolveLocation o s next = .next t) :
    ∃ l, operandLoc o s = some l ∧ next l (s.past o) = .next t := by
  unfold resolveLocation at h
  split at h
  · exact ⟨_, ‹_›, h⟩
  · exact absurd h raise_ne_next

/-- A location that is there is resolved. -/
theorem resolveLocation_of_some {o : Operand} {s : State} {next : Loc → State → Out} {l : Loc}
    (h : operandLoc o s = some l) : resolveLocation o s next = next l (s.past o) := by
  simp [resolveLocation, h]

end Sys2Proof.Machine
end

