-- ==== Sys2Proof/Laws/Families.lean ====
section
/-! SUPPORT. What each operation of the instruction families comes to, said once: if it gives a next state, that state, written
with the named updates whose fields Laws/State.lean gives. An instruction's meaning is one of these on its operand, so each
lemma applies to `h : exec i s = .next t` for the instructions it is about. -/

namespace Sys2Proof.Machine

/-- A next state is one state. -/
theorem next_eq {s t : State} (h : (Host.Outcome.next s : Out) = .next t) : t = s := (Host.Outcome.next.inj h).symm

/-- LDA: the register and Z, N. -/
theorem loadA_next {o : Operand} {s t : State} (h : loadA o s = .next t) :
    ∃ v, operandValue o s = some v ∧ t = ((s.past o).setA v).setP (s.p.withZN v) := by
  obtain ⟨v, hv, h⟩ := resolveValue_next h
  exact ⟨v, hv, next_eq h⟩

/-- LDX: the register and Z, N. -/
theorem loadX_next {o : Operand} {s t : State} (h : loadX o s = .next t) :
    ∃ v, operandValue o s = some v ∧ t = ((s.past o).setX v).setP (s.p.withZN v) := by
  obtain ⟨v, hv, h⟩ := resolveValue_next h
  exact ⟨v, hv, next_eq h⟩

/-- LDY: the register and Z, N. -/
theorem loadY_next {o : Operand} {s t : State} (h : loadY o s = .next t) :
    ∃ v, operandValue o s = some v ∧ t = ((s.past o).setY v).setP (s.p.withZN v) := by
  obtain ⟨v, hv, h⟩ := resolveValue_next h
  exact ⟨v, hv, next_eq h⟩

/-- ADC: A and C, V, Z, N. -/
theorem addWithCarry_next {o : Operand} {s t : State} (h : addWithCarry o s = .next t) :
    ∃ v, operandValue o s = some v ∧ t = ((s.past o).setA (addC s.a v s.p.c).r).setP (s.p.withSum (addC s.a v s.p.c)) := by
  obtain ⟨v, hv, h⟩ := resolveValue_next h
  exact ⟨v, hv, next_eq h⟩

/-- SBC: A and C, V, Z, N. -/
theorem subtractWithBorrow_next {o : Operand} {s t : State} (h : subtractWithBorrow o s = .next t) :
    ∃ v, operandValue o s = some v ∧ t = ((s.past o).setA (subC s.a v s.p.c).r).setP (s.p.withSum (subC s.a v s.p.c)) := by
  obtain ⟨v, hv, h⟩ := resolveValue_next h
  exact ⟨v, hv, next_eq h⟩

/-- AND, ORA, EOR: A and Z, N. -/
theorem logic_next {f : Byte → Byte → Byte} {o : Operand} {s t : State} (h : logic f o s = .next t) :
    ∃ v, operandValue o s = some v ∧ t = ((s.past o).setA (f s.a v)).setP (s.p.withZN (f s.a v)) := by
  obtain ⟨v, hv, h⟩ := resolveValue_next h
  exact ⟨v, hv, next_eq h⟩

/-- BIT: Z, V, N. -/
theorem testBits_next {o : Operand} {s t : State} (h : testBits o s = .next t) :
    ∃ v, operandValue o s = some v ∧ t = (s.past o).setP (s.p.withBitTested (bitTest s.a v)) := by
  obtain ⟨v, hv, h⟩ := resolveValue_next h
  exact ⟨v, hv, next_eq h⟩

/-- CMP, CPX, CPY: C, Z, N. -/
theorem compareWith_next {r : Byte} {o : Operand} {s t : State} (h : compareWith r o s = .next t) :
    ∃ v, operandValue o s = some v ∧ t = (s.past o).setP (s.p.withCompared (compareBytes r v)) := by
  obtain ⟨v, hv, h⟩ := resolveValue_next h
  exact ⟨v, hv, next_eq h⟩

/-- STA: the byte at the effective address. -/
theorem storeA_next {o : Operand} {s t : State} (h : storeA o s = .next t) :
    ∃ ea, effectiveAddress o s = some ea ∧ t = (s.past o).store ea s.a := by
  obtain ⟨ea, hea, h⟩ := resolveAddress_next h
  exact ⟨ea, hea, next_eq h⟩

/-- STX: the byte at the effective address. -/
theorem storeX_next {o : Operand} {s t : State} (h : storeX o s = .next t) :
    ∃ ea, effectiveAddress o s = some ea ∧ t = (s.past o).store ea s.x := by
  obtain ⟨ea, hea, h⟩ := resolveAddress_next h
  exact ⟨ea, hea, next_eq h⟩

/-- STY: the byte at the effective address. -/
theorem storeY_next {o : Operand} {s t : State} (h : storeY o s = .next t) :
    ∃ ea, effectiveAddress o s = some ea ∧ t = (s.past o).store ea s.y := by
  obtain ⟨ea, hea, h⟩ := resolveAddress_next h
  exact ⟨ea, hea, next_eq h⟩

/-- INC, DEC: the byte at the effective address and Z, N. -/
theorem modifyByte_next {f : Byte → Byte} {o : Operand} {s t : State} (h : modifyByte f o s = .next t) :
    ∃ ea, effectiveAddress o s = some ea ∧ t = ((s.past o).store ea (f (memRead s.mem ea))).setP (s.p.withZN (f (memRead s.mem ea))) := by
  obtain ⟨ea, hea, h⟩ := resolveAddress_next h
  exact ⟨ea, hea, next_eq h⟩

/-- JMP: PC. -/
theorem jump_next {o : Operand} {s t : State} (h : jump o s = .next t) :
    ∃ ea, effectiveAddress o s = some ea ∧ t = (s.past o).setPc ea := by
  obtain ⟨ea, hea, h⟩ := resolveAddress_next h
  exact ⟨ea, hea, next_eq h⟩

/-- ASL, LSR, ROL, ROR: the location and C, Z, N. -/
theorem shiftWith_next {f : Byte → Bool → Shifted} {o : Operand} {s t : State} (h : shiftWith f o s = .next t) :
    ∃ l, operandLoc o s = some l ∧
      t = ((s.past o).writeLoc l (f ((s.past o).readLoc l) s.p.c).r).setP
        (s.p.withShifted (f ((s.past o).readLoc l) s.p.c)) := by
  obtain ⟨l, hl, h⟩ := resolveLocation_next h
  exact ⟨l, hl, next_eq h⟩

/-- A branch: PC only. -/
theorem branchIf_next {taken : Bool} {off : Byte} {s t : State} (h : branchIf taken off s = .next t) :
    t = (s.past (.relative off)).setPc
      (if taken then branchTarget off (s.past (.relative off)).pc else (s.past (.relative off)).pc) := next_eq h

/-- A register written with Z and N. -/
theorem putA_next {v : Byte} {s t : State} (h : putA v s = .next t) : t = (s.setA v).setP (s.p.withZN v) := next_eq h

/-- A register written with Z and N. -/
theorem putX_next {v : Byte} {s t : State} (h : putX v s = .next t) : t = (s.setX v).setP (s.p.withZN v) := next_eq h

/-- A register written with Z and N. -/
theorem putY_next {v : Byte} {s t : State} (h : putY v s = .next t) : t = (s.setY v).setP (s.p.withZN v) := next_eq h

/-- P written. -/
theorem putP_next {p : Status} {s t : State} (h : putP p s = .next t) : t = s.setP p := next_eq h

/-- JSR: two admitted pushes of the address of its last byte, then PC. -/
theorem execJsr_next {w : Word} {s t : State} (h : execJsr w s = .next t) :
    let s1 := s.past (.absolute w)
    pushFaults s1 = false ∧ pushFaults (s1.pushed (hi (s1.pc - 1))) = false ∧
      t = ((s1.pushed (hi (s1.pc - 1))).pushed (lo (s1.pc - 1))).setPc w := by
  obtain ⟨h1, h2, h⟩ := pushWord_next (show pushWord s.pc ((s.past (.absolute w)).pc - 1) (s.past (.absolute w))
    (fun s2 => .next (s2.setPc w)) = .next t from h)
  exact ⟨h1, h2, next_eq h⟩

/-- RTS: two admitted pops, then PC one past the popped word. -/
theorem execRts_next {s t : State} (h : execRts s = .next t) :
    let s1 := s.past .implicit
    popFaults s1 = false ∧ popFaults s1.popped = false ∧
      t = s1.popped.popped.setPc (wordOf s1.popped.popped.stackByte s1.popped.stackByte + 1) := by
  obtain ⟨h1, h2, h⟩ := popWord_next h
  exact ⟨h1, h2, next_eq h⟩

/-- PHA: one admitted push. -/
theorem execPha_next {s t : State} (h : execPha s = .next t) :
    pushFaults (s.past .implicit) = false ∧ t = (s.past .implicit).pushed s.a := by
  obtain ⟨h1, h⟩ := pushByte_next h
  exact ⟨h1, next_eq h⟩

/-- PHP: one admitted push. -/
theorem execPhp_next {s t : State} (h : execPhp s = .next t) :
    pushFaults (s.past .implicit) = false ∧ t = (s.past .implicit).pushed (pushedStatus s.p) := by
  obtain ⟨h1, h⟩ := pushByte_next h
  exact ⟨h1, next_eq h⟩

/-- PLA: one admitted pop into A, with Z and N. -/
theorem execPla_next {s t : State} (h : execPla s = .next t) :
    let s1 := (s.past .implicit).popped
    popFaults (s.past .implicit) = false ∧ t = (s1.setA s1.stackByte).setP (s1.p.withZN s1.stackByte) := by
  obtain ⟨h1, h⟩ := popByte_next h
  exact ⟨h1, next_eq h⟩

/-- PLP: one admitted pop into P. -/
theorem execPlp_next {s t : State} (h : execPlp s = .next t) :
    let s1 := (s.past .implicit).popped
    popFaults (s.past .implicit) = false ∧ t = s1.setP (loadP s1.p s1.stackByte) := by
  obtain ⟨h1, h⟩ := popByte_next h
  exact ⟨h1, next_eq h⟩

end Sys2Proof.Machine
end

