-- ==== Sys2Proof/Laws/Memory.lean ====
section
/-! SUPPORT. The canonical form of memory is kept by every memory operation, and holds at reset. -/

namespace Sys2Proof.Machine

/-- The head of a list in canonical form: its bounds, its byte, and the rest. -/
theorem cellsWf_cons {low k : Nat} {v : Byte} {rest : List Host.Cell} :
    cellsWf low ((k, v) :: rest) = true ↔
      low ≤ k ∧ k < 65536 ∧ v ≠ unlistedByte ∧ cellsWf (k + 1) rest = true := by
  simp [cellsWf, and_assoc]

/-- A list in canonical form above a bound is so above any lower bound. -/
theorem cellsWf_of_le {low low' : Nat} {m : List Host.Cell} (h : cellsWf low m = true) (hle : low' ≤ low) :
    cellsWf low' m = true := by
  cases m with
  | nil => rfl
  | cons cell rest =>
    obtain ⟨hlow, hrest⟩ := cellsWf_cons.mp h
    exact cellsWf_cons.mpr ⟨hle.trans hlow, hrest⟩

/-- Writing a cell within the space keeps the canonical form. -/
theorem cellsWf_writeCells {low a : Nat} {m : List Host.Cell} (v : Byte) (h : cellsWf low m = true) (hlow : low ≤ a)
    (ha : a < 65536) : cellsWf low (writeCells m a v) = true := by
  induction m generalizing low with
  | nil =>
    by_cases hv : v = unlistedByte
    · simp [writeCells, hv, cellsWf]
    · simpa [writeCells, hv] using cellsWf_cons.mpr ⟨hlow, ha, hv, rfl⟩
  | cons cell rest ih =>
    obtain ⟨k, w⟩ := cell
    obtain ⟨hk, hkb, hw, hrest⟩ := cellsWf_cons.mp h
    rcases lt_trichotomy a k with hlt | heq | hgt
    · by_cases hv : v = unlistedByte
      · simpa [writeCells, hlt, hv] using h
      · simpa [writeCells, hlt, hv] using
          cellsWf_cons.mpr ⟨hlow, ha, hv, cellsWf_cons.mpr ⟨hlt, hkb, hw, hrest⟩⟩
    · subst heq
      by_cases hv : v = unlistedByte
      · simpa [writeCells, hv] using cellsWf_of_le hrest (hk.trans (Nat.le_succ a))
      · simpa [writeCells, hv] using cellsWf_cons.mpr ⟨hk, ha, hv, hrest⟩
    · have hnot : ¬ a < k := by omega
      have hne : a ≠ k := by omega
      simpa [writeCells, hnot, hne] using cellsWf_cons.mpr ⟨hk, hkb, hw, ih hrest hgt⟩

/-- A write keeps the canonical form. -/
theorem memWrite_wf {m : Memory} (addr : Word) (v : Byte) (h : m.wf = true) : (memWrite m addr v).wf = true :=
  cellsWf_writeCells v h (Nat.zero_le _) addr.isLt

/-- A store keeps the canonical form. -/
theorem State.store_wf {s : State} (addr : Word) (v : Byte) (h : s.mem.wf = true) : (s.store addr v).mem.wf = true :=
  memWrite_wf addr v h

/-- A write to a location keeps the canonical form. -/
theorem State.writeLoc_wf {s : State} (l : Loc) (v : Byte) (h : s.mem.wf = true) : (s.writeLoc l v).mem.wf = true := by
  cases l with
  | regA => exact h
  | mem ea => exact memWrite_wf ea v h

/-- A push keeps the canonical form. -/
theorem State.pushed_wf {s : State} (v : Byte) (h : s.mem.wf = true) : (s.pushed v).mem.wf = true :=
  memWrite_wf _ v h

/-- Placing an instruction keeps the canonical form. -/
theorem placeBytes_wf {m : Memory} (addr : Word) (b0 b1 b2 : Byte) (h : m.wf = true) :
    (placeBytes m addr b0 b1 b2).wf = true :=
  memWrite_wf _ _ (memWrite_wf _ _ (memWrite_wf _ _ h))

/-- The memory of reset is in canonical form. -/
theorem reset_mem_wf : State.reset.mem.wf = true := rfl

/-- Reset is the construction from the default parameters and the image that lists nothing (70_reset_and_hazards.md R260). -/
theorem construct_default : construct Config.default [] = State.reset := rfl

end Sys2Proof.Machine
end

