-- ==== Sys2Proof/Laws/PerInstr.lean ====
section
/-! SUPPORT. Laws stated for each instruction by its constructor. -/

namespace Sys2Proof.Laws

/-- An instruction is well formed, and its encoding has the length its mode gives it (30_encoding.md R61, R69). -/
def EncodedForm.Statement (i : Instr) : Prop := i.wf = true ∧ (encode i).length = i.mode.operandCount + 1

theorem EncodedForm.ldaImm (v : Byte) : EncodedForm.Statement (.ldaImm v) := ⟨rfl, rfl⟩
theorem EncodedForm.ldaZp (b : Byte) : EncodedForm.Statement (.ldaZp b) := ⟨rfl, rfl⟩
theorem EncodedForm.ldaZpX (b : Byte) : EncodedForm.Statement (.ldaZpX b) := ⟨rfl, rfl⟩
theorem EncodedForm.ldaAbs (w : Word) : EncodedForm.Statement (.ldaAbs w) := ⟨rfl, rfl⟩
theorem EncodedForm.ldaAbsX (w : Word) : EncodedForm.Statement (.ldaAbsX w) := ⟨rfl, rfl⟩
theorem EncodedForm.ldaAbsY (w : Word) : EncodedForm.Statement (.ldaAbsY w) := ⟨rfl, rfl⟩
theorem EncodedForm.ldaIndX (b : Byte) : EncodedForm.Statement (.ldaIndX b) := ⟨rfl, rfl⟩
theorem EncodedForm.ldaIndY (b : Byte) : EncodedForm.Statement (.ldaIndY b) := ⟨rfl, rfl⟩
theorem EncodedForm.ldxImm (v : Byte) : EncodedForm.Statement (.ldxImm v) := ⟨rfl, rfl⟩
theorem EncodedForm.ldxZp (b : Byte) : EncodedForm.Statement (.ldxZp b) := ⟨rfl, rfl⟩
theorem EncodedForm.ldxZpY (b : Byte) : EncodedForm.Statement (.ldxZpY b) := ⟨rfl, rfl⟩
theorem EncodedForm.ldxAbs (w : Word) : EncodedForm.Statement (.ldxAbs w) := ⟨rfl, rfl⟩
theorem EncodedForm.ldxAbsY (w : Word) : EncodedForm.Statement (.ldxAbsY w) := ⟨rfl, rfl⟩
theorem EncodedForm.ldyImm (v : Byte) : EncodedForm.Statement (.ldyImm v) := ⟨rfl, rfl⟩
theorem EncodedForm.ldyZp (b : Byte) : EncodedForm.Statement (.ldyZp b) := ⟨rfl, rfl⟩
theorem EncodedForm.ldyZpX (b : Byte) : EncodedForm.Statement (.ldyZpX b) := ⟨rfl, rfl⟩
theorem EncodedForm.ldyAbs (w : Word) : EncodedForm.Statement (.ldyAbs w) := ⟨rfl, rfl⟩
theorem EncodedForm.ldyAbsX (w : Word) : EncodedForm.Statement (.ldyAbsX w) := ⟨rfl, rfl⟩
theorem EncodedForm.staZp (b : Byte) : EncodedForm.Statement (.staZp b) := ⟨rfl, rfl⟩
theorem EncodedForm.staZpX (b : Byte) : EncodedForm.Statement (.staZpX b) := ⟨rfl, rfl⟩
theorem EncodedForm.staAbs (w : Word) : EncodedForm.Statement (.staAbs w) := ⟨rfl, rfl⟩
theorem EncodedForm.staAbsX (w : Word) : EncodedForm.Statement (.staAbsX w) := ⟨rfl, rfl⟩
theorem EncodedForm.staAbsY (w : Word) : EncodedForm.Statement (.staAbsY w) := ⟨rfl, rfl⟩
theorem EncodedForm.staIndX (b : Byte) : EncodedForm.Statement (.staIndX b) := ⟨rfl, rfl⟩
theorem EncodedForm.staIndY (b : Byte) : EncodedForm.Statement (.staIndY b) := ⟨rfl, rfl⟩
theorem EncodedForm.stxZp (b : Byte) : EncodedForm.Statement (.stxZp b) := ⟨rfl, rfl⟩
theorem EncodedForm.stxZpY (b : Byte) : EncodedForm.Statement (.stxZpY b) := ⟨rfl, rfl⟩
theorem EncodedForm.stxAbs (w : Word) : EncodedForm.Statement (.stxAbs w) := ⟨rfl, rfl⟩
theorem EncodedForm.styZp (b : Byte) : EncodedForm.Statement (.styZp b) := ⟨rfl, rfl⟩
theorem EncodedForm.styZpX (b : Byte) : EncodedForm.Statement (.styZpX b) := ⟨rfl, rfl⟩
theorem EncodedForm.styAbs (w : Word) : EncodedForm.Statement (.styAbs w) := ⟨rfl, rfl⟩
theorem EncodedForm.adcImm (v : Byte) : EncodedForm.Statement (.adcImm v) := ⟨rfl, rfl⟩
theorem EncodedForm.adcZp (b : Byte) : EncodedForm.Statement (.adcZp b) := ⟨rfl, rfl⟩
theorem EncodedForm.adcZpX (b : Byte) : EncodedForm.Statement (.adcZpX b) := ⟨rfl, rfl⟩
theorem EncodedForm.adcAbs (w : Word) : EncodedForm.Statement (.adcAbs w) := ⟨rfl, rfl⟩
theorem EncodedForm.adcAbsX (w : Word) : EncodedForm.Statement (.adcAbsX w) := ⟨rfl, rfl⟩
theorem EncodedForm.adcAbsY (w : Word) : EncodedForm.Statement (.adcAbsY w) := ⟨rfl, rfl⟩
theorem EncodedForm.adcIndX (b : Byte) : EncodedForm.Statement (.adcIndX b) := ⟨rfl, rfl⟩
theorem EncodedForm.adcIndY (b : Byte) : EncodedForm.Statement (.adcIndY b) := ⟨rfl, rfl⟩
theorem EncodedForm.sbcImm (v : Byte) : EncodedForm.Statement (.sbcImm v) := ⟨rfl, rfl⟩
theorem EncodedForm.sbcZp (b : Byte) : EncodedForm.Statement (.sbcZp b) := ⟨rfl, rfl⟩
theorem EncodedForm.sbcZpX (b : Byte) : EncodedForm.Statement (.sbcZpX b) := ⟨rfl, rfl⟩
theorem EncodedForm.sbcAbs (w : Word) : EncodedForm.Statement (.sbcAbs w) := ⟨rfl, rfl⟩
theorem EncodedForm.sbcAbsX (w : Word) : EncodedForm.Statement (.sbcAbsX w) := ⟨rfl, rfl⟩
theorem EncodedForm.sbcAbsY (w : Word) : EncodedForm.Statement (.sbcAbsY w) := ⟨rfl, rfl⟩
theorem EncodedForm.sbcIndX (b : Byte) : EncodedForm.Statement (.sbcIndX b) := ⟨rfl, rfl⟩
theorem EncodedForm.sbcIndY (b : Byte) : EncodedForm.Statement (.sbcIndY b) := ⟨rfl, rfl⟩
theorem EncodedForm.andImm (v : Byte) : EncodedForm.Statement (.andImm v) := ⟨rfl, rfl⟩
theorem EncodedForm.andZp (b : Byte) : EncodedForm.Statement (.andZp b) := ⟨rfl, rfl⟩
theorem EncodedForm.andZpX (b : Byte) : EncodedForm.Statement (.andZpX b) := ⟨rfl, rfl⟩
theorem EncodedForm.andAbs (w : Word) : EncodedForm.Statement (.andAbs w) := ⟨rfl, rfl⟩
theorem EncodedForm.andAbsX (w : Word) : EncodedForm.Statement (.andAbsX w) := ⟨rfl, rfl⟩
theorem EncodedForm.andAbsY (w : Word) : EncodedForm.Statement (.andAbsY w) := ⟨rfl, rfl⟩
theorem EncodedForm.andIndX (b : Byte) : EncodedForm.Statement (.andIndX b) := ⟨rfl, rfl⟩
theorem EncodedForm.andIndY (b : Byte) : EncodedForm.Statement (.andIndY b) := ⟨rfl, rfl⟩
theorem EncodedForm.oraImm (v : Byte) : EncodedForm.Statement (.oraImm v) := ⟨rfl, rfl⟩
theorem EncodedForm.oraZp (b : Byte) : EncodedForm.Statement (.oraZp b) := ⟨rfl, rfl⟩
theorem EncodedForm.oraZpX (b : Byte) : EncodedForm.Statement (.oraZpX b) := ⟨rfl, rfl⟩
theorem EncodedForm.oraAbs (w : Word) : EncodedForm.Statement (.oraAbs w) := ⟨rfl, rfl⟩
theorem EncodedForm.oraAbsX (w : Word) : EncodedForm.Statement (.oraAbsX w) := ⟨rfl, rfl⟩
theorem EncodedForm.oraAbsY (w : Word) : EncodedForm.Statement (.oraAbsY w) := ⟨rfl, rfl⟩
theorem EncodedForm.oraIndX (b : Byte) : EncodedForm.Statement (.oraIndX b) := ⟨rfl, rfl⟩
theorem EncodedForm.oraIndY (b : Byte) : EncodedForm.Statement (.oraIndY b) := ⟨rfl, rfl⟩
theorem EncodedForm.eorImm (v : Byte) : EncodedForm.Statement (.eorImm v) := ⟨rfl, rfl⟩
theorem EncodedForm.eorZp (b : Byte) : EncodedForm.Statement (.eorZp b) := ⟨rfl, rfl⟩
theorem EncodedForm.eorZpX (b : Byte) : EncodedForm.Statement (.eorZpX b) := ⟨rfl, rfl⟩
theorem EncodedForm.eorAbs (w : Word) : EncodedForm.Statement (.eorAbs w) := ⟨rfl, rfl⟩
theorem EncodedForm.eorAbsX (w : Word) : EncodedForm.Statement (.eorAbsX w) := ⟨rfl, rfl⟩
theorem EncodedForm.eorAbsY (w : Word) : EncodedForm.Statement (.eorAbsY w) := ⟨rfl, rfl⟩
theorem EncodedForm.eorIndX (b : Byte) : EncodedForm.Statement (.eorIndX b) := ⟨rfl, rfl⟩
theorem EncodedForm.eorIndY (b : Byte) : EncodedForm.Statement (.eorIndY b) := ⟨rfl, rfl⟩
theorem EncodedForm.bitZp (b : Byte) : EncodedForm.Statement (.bitZp b) := ⟨rfl, rfl⟩
theorem EncodedForm.bitAbs (w : Word) : EncodedForm.Statement (.bitAbs w) := ⟨rfl, rfl⟩
theorem EncodedForm.cmpImm (v : Byte) : EncodedForm.Statement (.cmpImm v) := ⟨rfl, rfl⟩
theorem EncodedForm.cmpZp (b : Byte) : EncodedForm.Statement (.cmpZp b) := ⟨rfl, rfl⟩
theorem EncodedForm.cmpZpX (b : Byte) : EncodedForm.Statement (.cmpZpX b) := ⟨rfl, rfl⟩
theorem EncodedForm.cmpAbs (w : Word) : EncodedForm.Statement (.cmpAbs w) := ⟨rfl, rfl⟩
theorem EncodedForm.cmpAbsX (w : Word) : EncodedForm.Statement (.cmpAbsX w) := ⟨rfl, rfl⟩
theorem EncodedForm.cmpAbsY (w : Word) : EncodedForm.Statement (.cmpAbsY w) := ⟨rfl, rfl⟩
theorem EncodedForm.cmpIndX (b : Byte) : EncodedForm.Statement (.cmpIndX b) := ⟨rfl, rfl⟩
theorem EncodedForm.cmpIndY (b : Byte) : EncodedForm.Statement (.cmpIndY b) := ⟨rfl, rfl⟩
theorem EncodedForm.cpxImm (v : Byte) : EncodedForm.Statement (.cpxImm v) := ⟨rfl, rfl⟩
theorem EncodedForm.cpxZp (b : Byte) : EncodedForm.Statement (.cpxZp b) := ⟨rfl, rfl⟩
theorem EncodedForm.cpxAbs (w : Word) : EncodedForm.Statement (.cpxAbs w) := ⟨rfl, rfl⟩
theorem EncodedForm.cpyImm (v : Byte) : EncodedForm.Statement (.cpyImm v) := ⟨rfl, rfl⟩
theorem EncodedForm.cpyZp (b : Byte) : EncodedForm.Statement (.cpyZp b) := ⟨rfl, rfl⟩
theorem EncodedForm.cpyAbs (w : Word) : EncodedForm.Statement (.cpyAbs w) := ⟨rfl, rfl⟩
theorem EncodedForm.incZp (b : Byte) : EncodedForm.Statement (.incZp b) := ⟨rfl, rfl⟩
theorem EncodedForm.incZpX (b : Byte) : EncodedForm.Statement (.incZpX b) := ⟨rfl, rfl⟩
theorem EncodedForm.incAbs (w : Word) : EncodedForm.Statement (.incAbs w) := ⟨rfl, rfl⟩
theorem EncodedForm.incAbsX (w : Word) : EncodedForm.Statement (.incAbsX w) := ⟨rfl, rfl⟩
theorem EncodedForm.decZp (b : Byte) : EncodedForm.Statement (.decZp b) := ⟨rfl, rfl⟩
theorem EncodedForm.decZpX (b : Byte) : EncodedForm.Statement (.decZpX b) := ⟨rfl, rfl⟩
theorem EncodedForm.decAbs (w : Word) : EncodedForm.Statement (.decAbs w) := ⟨rfl, rfl⟩
theorem EncodedForm.decAbsX (w : Word) : EncodedForm.Statement (.decAbsX w) := ⟨rfl, rfl⟩
theorem EncodedForm.inx : EncodedForm.Statement .inx := ⟨rfl, rfl⟩
theorem EncodedForm.iny : EncodedForm.Statement .iny := ⟨rfl, rfl⟩
theorem EncodedForm.dex : EncodedForm.Statement .dex := ⟨rfl, rfl⟩
theorem EncodedForm.dey : EncodedForm.Statement .dey := ⟨rfl, rfl⟩
theorem EncodedForm.aslAcc : EncodedForm.Statement .aslAcc := ⟨rfl, rfl⟩
theorem EncodedForm.aslZp (b : Byte) : EncodedForm.Statement (.aslZp b) := ⟨rfl, rfl⟩
theorem EncodedForm.aslZpX (b : Byte) : EncodedForm.Statement (.aslZpX b) := ⟨rfl, rfl⟩
theorem EncodedForm.aslAbs (w : Word) : EncodedForm.Statement (.aslAbs w) := ⟨rfl, rfl⟩
theorem EncodedForm.aslAbsX (w : Word) : EncodedForm.Statement (.aslAbsX w) := ⟨rfl, rfl⟩
theorem EncodedForm.lsrAcc : EncodedForm.Statement .lsrAcc := ⟨rfl, rfl⟩
theorem EncodedForm.lsrZp (b : Byte) : EncodedForm.Statement (.lsrZp b) := ⟨rfl, rfl⟩
theorem EncodedForm.lsrZpX (b : Byte) : EncodedForm.Statement (.lsrZpX b) := ⟨rfl, rfl⟩
theorem EncodedForm.lsrAbs (w : Word) : EncodedForm.Statement (.lsrAbs w) := ⟨rfl, rfl⟩
theorem EncodedForm.lsrAbsX (w : Word) : EncodedForm.Statement (.lsrAbsX w) := ⟨rfl, rfl⟩
theorem EncodedForm.rolAcc : EncodedForm.Statement .rolAcc := ⟨rfl, rfl⟩
theorem EncodedForm.rolZp (b : Byte) : EncodedForm.Statement (.rolZp b) := ⟨rfl, rfl⟩
theorem EncodedForm.rolZpX (b : Byte) : EncodedForm.Statement (.rolZpX b) := ⟨rfl, rfl⟩
theorem EncodedForm.rolAbs (w : Word) : EncodedForm.Statement (.rolAbs w) := ⟨rfl, rfl⟩
theorem EncodedForm.rolAbsX (w : Word) : EncodedForm.Statement (.rolAbsX w) := ⟨rfl, rfl⟩
theorem EncodedForm.rorAcc : EncodedForm.Statement .rorAcc := ⟨rfl, rfl⟩
theorem EncodedForm.rorZp (b : Byte) : EncodedForm.Statement (.rorZp b) := ⟨rfl, rfl⟩
theorem EncodedForm.rorZpX (b : Byte) : EncodedForm.Statement (.rorZpX b) := ⟨rfl, rfl⟩
theorem EncodedForm.rorAbs (w : Word) : EncodedForm.Statement (.rorAbs w) := ⟨rfl, rfl⟩
theorem EncodedForm.rorAbsX (w : Word) : EncodedForm.Statement (.rorAbsX w) := ⟨rfl, rfl⟩
theorem EncodedForm.bcc (off : Byte) : EncodedForm.Statement (.bcc off) := ⟨rfl, rfl⟩
theorem EncodedForm.bcs (off : Byte) : EncodedForm.Statement (.bcs off) := ⟨rfl, rfl⟩
theorem EncodedForm.beq (off : Byte) : EncodedForm.Statement (.beq off) := ⟨rfl, rfl⟩
theorem EncodedForm.bne (off : Byte) : EncodedForm.Statement (.bne off) := ⟨rfl, rfl⟩
theorem EncodedForm.bmi (off : Byte) : EncodedForm.Statement (.bmi off) := ⟨rfl, rfl⟩
theorem EncodedForm.bpl (off : Byte) : EncodedForm.Statement (.bpl off) := ⟨rfl, rfl⟩
theorem EncodedForm.bvc (off : Byte) : EncodedForm.Statement (.bvc off) := ⟨rfl, rfl⟩
theorem EncodedForm.bvs (off : Byte) : EncodedForm.Statement (.bvs off) := ⟨rfl, rfl⟩
theorem EncodedForm.jmpAbs (w : Word) : EncodedForm.Statement (.jmpAbs w) := ⟨rfl, rfl⟩
theorem EncodedForm.jmpInd (w : Word) : EncodedForm.Statement (.jmpInd w) := ⟨rfl, rfl⟩
theorem EncodedForm.jsr (w : Word) : EncodedForm.Statement (.jsr w) := ⟨rfl, rfl⟩
theorem EncodedForm.rts : EncodedForm.Statement .rts := ⟨rfl, rfl⟩
theorem EncodedForm.brk : EncodedForm.Statement .brk := ⟨rfl, rfl⟩
theorem EncodedForm.rti : EncodedForm.Statement .rti := ⟨rfl, rfl⟩
theorem EncodedForm.pha : EncodedForm.Statement .pha := ⟨rfl, rfl⟩
theorem EncodedForm.php : EncodedForm.Statement .php := ⟨rfl, rfl⟩
theorem EncodedForm.pla : EncodedForm.Statement .pla := ⟨rfl, rfl⟩
theorem EncodedForm.plp : EncodedForm.Statement .plp := ⟨rfl, rfl⟩
theorem EncodedForm.tax : EncodedForm.Statement .tax := ⟨rfl, rfl⟩
theorem EncodedForm.tay : EncodedForm.Statement .tay := ⟨rfl, rfl⟩
theorem EncodedForm.txa : EncodedForm.Statement .txa := ⟨rfl, rfl⟩
theorem EncodedForm.tya : EncodedForm.Statement .tya := ⟨rfl, rfl⟩
theorem EncodedForm.tsx : EncodedForm.Statement .tsx := ⟨rfl, rfl⟩
theorem EncodedForm.txs : EncodedForm.Statement .txs := ⟨rfl, rfl⟩
theorem EncodedForm.clc : EncodedForm.Statement .clc := ⟨rfl, rfl⟩
theorem EncodedForm.sec : EncodedForm.Statement .sec := ⟨rfl, rfl⟩
theorem EncodedForm.cli : EncodedForm.Statement .cli := ⟨rfl, rfl⟩
theorem EncodedForm.sei : EncodedForm.Statement .sei := ⟨rfl, rfl⟩
theorem EncodedForm.cld : EncodedForm.Statement .cld := ⟨rfl, rfl⟩
theorem EncodedForm.sed : EncodedForm.Statement .sed := ⟨rfl, rfl⟩
theorem EncodedForm.clv : EncodedForm.Statement .clv := ⟨rfl, rfl⟩
theorem EncodedForm.nop : EncodedForm.Statement .nop := ⟨rfl, rfl⟩

end Sys2Proof.Laws
end

