-- ==== Sys2Proof/Laws/Words.lean ====
section
/-! SUPPORT. Words and their bytes. -/

namespace Sys2Proof

/-- A word is made of its two bytes. -/
@[simp] theorem wordOf_hi_lo (w : Word) : wordOf (hi w) (lo w) = w := by
  unfold wordOf hi lo
  rw [BitVec.extractLsb'_append_extractLsb'_eq_extractLsb' (by rfl)]
  simp

/-- The high byte of a word made of two bytes. -/
@[simp] theorem hi_wordOf (h l : Byte) : hi (wordOf h l) = h := by
  unfold wordOf hi
  ext i hi
  rw [BitVec.getElem_extractLsb', BitVec.getLsbD_append]
  simp [BitVec.getLsbD_eq_getElem, hi]

/-- The low byte of a word made of two bytes. -/
@[simp] theorem lo_wordOf (h l : Byte) : lo (wordOf h l) = l := by
  unfold wordOf lo
  ext i hi
  rw [BitVec.getElem_extractLsb', BitVec.getLsbD_append]
  simp [hi]

/-- The value of a word made of two bytes. -/
theorem toNat_wordOf (h l : Byte) : (wordOf h l).toNat = 256 * h.toNat + l.toNat := by
  have hor : h.toNat <<< 8 + l.toNat = h.toNat <<< 8 ||| l.toNat := Nat.shiftLeft_add_eq_or_of_lt l.isLt h.toNat
  unfold wordOf
  rw [BitVec.toNat_append, ← hor, Nat.shiftLeft_eq]
  omega

end Sys2Proof
end

