-- ==== Sys2Proof/Tests/Slice0.lean ====
section
/-! SUPPORT. The model's own tests: expected results come from the examples of the spec (95_test_vectors.md and the example of each
rule), each test is about one step; and, for each statement with hypotheses, a witness that meets them. -/

namespace Sys2Proof.Tests

open Sys2Proof.Machine Sys2Proof.Statements Sys2Proof.Safety

/-! ### Helpers -/

/-- Memory with bytes placed from an address on. -/
def fill (m : Memory) (a : Word) : List Byte → Memory
  | [] => m
  | b :: rest => fill (memWrite m a b) (a + 1) rest

/-- The machine of 95_test_vectors.md with bytes at PC. -/
def start (code : List Byte) : State := { State.reset with mem := fill [] 0x0600 code }

/-- The same with more bytes of memory, each an address and a byte. -/
def startWith (code : List Byte) (cells : List (Word × Byte)) : State :=
  { start code with mem := cells.foldl (fun m c => memWrite m c.1 c.2) (start code).mem }

/-- P from its byte form, U included. -/
def pOf (v : Byte) : Status := { loadP State.reset.p v with u := v.getLsbD 5 }

/-- The machine at a stack pointer, under `Fatal`. -/
def fatalAt (sp : Byte) : State := { State.reset with sp := sp }

/-- The machine at a stack pointer, under `Wrap`. -/
def wrapAt (sp : Byte) : State := { State.reset with sp := sp, cfg := { Config.default with stackPolicy := .wrap } }

/-- The step completes, and its next state has the property. -/
def after (s : State) (good : State → Bool) : Bool :=
  match step s with
  | .next t => good t
  | _ => false

/-- The step faults, and its record and the state it leaves have the property. -/
def faulted (s : State) (good : FaultRecord → State → Bool) : Bool :=
  match step s with
  | .fault f => good f.record f.left
  | _ => false

/-- The bytes are exactly this instruction. -/
def reads (bs : List Byte) (i : Instr) : Bool :=
  match decode bs with
  | .ok (j, []) => j == i
  | _ => false

/-- Each row's bytes are its instruction. -/
def allRead (rows : List (List Byte × Instr)) : Bool := rows.all fun r => reads r.1 r.2

/-! ### Well-formed parts (30_encoding.md R61, R69) -/

/-- There is no STA immediate (42_load_store.md R123): the mode check refuses it. -/
theorem test_wellFormed_refuses_mode : wellFormedParts .sta .immediate 1 = false := by decide

/-- LDA immediate takes one operand byte (30_encoding.md R61): the size check refuses none and two. -/
theorem test_wellFormed_refuses_size :
    wellFormedParts .lda .immediate 0 = false ∧ wellFormedParts .lda .immediate 2 = false := by decide

/-- And with one it is well formed. -/
theorem test_wellFormed_accepts : wellFormedParts .lda .immediate 1 = true ∧ (Instr.ldaImm 0x11).wf = true := by decide

/-! ### Decoding every constructor -/

/-- The Encoding lines of 42_load_store.md: LDA, LDX, LDY. -/
theorem test_decode_loads : allRead [
    ([0xA9, 0x89], .ldaImm 0x89), ([0xA5, 0x89], .ldaZp 0x89), ([0xB5, 0x89], .ldaZpX 0x89),
    ([0xAD, 0x34, 0x12], .ldaAbs 0x1234), ([0xBD, 0x34, 0x12], .ldaAbsX 0x1234), ([0xB9, 0x34, 0x12], .ldaAbsY 0x1234),
    ([0xA1, 0x89], .ldaIndX 0x89), ([0xB1, 0x89], .ldaIndY 0x89), ([0xA2, 0x89], .ldxImm 0x89),
    ([0xA6, 0x89], .ldxZp 0x89), ([0xB6, 0x89], .ldxZpY 0x89), ([0xAE, 0x34, 0x12], .ldxAbs 0x1234),
    ([0xBE, 0x34, 0x12], .ldxAbsY 0x1234), ([0xA0, 0x89], .ldyImm 0x89), ([0xA4, 0x89], .ldyZp 0x89),
    ([0xB4, 0x89], .ldyZpX 0x89), ([0xAC, 0x34, 0x12], .ldyAbs 0x1234), ([0xBC, 0x34, 0x12], .ldyAbsX 0x1234)] = true := by decide

/-- The Encoding lines of 42_load_store.md: STA, STX, STY. -/
theorem test_decode_stores : allRead [
    ([0x85, 0x89], .staZp 0x89), ([0x95, 0x89], .staZpX 0x89), ([0x8D, 0x34, 0x12], .staAbs 0x1234),
    ([0x9D, 0x34, 0x12], .staAbsX 0x1234), ([0x99, 0x34, 0x12], .staAbsY 0x1234), ([0x81, 0x89], .staIndX 0x89),
    ([0x91, 0x89], .staIndY 0x89), ([0x86, 0x89], .stxZp 0x89), ([0x96, 0x89], .stxZpY 0x89),
    ([0x8E, 0x34, 0x12], .stxAbs 0x1234), ([0x84, 0x89], .styZp 0x89), ([0x94, 0x89], .styZpX 0x89),
    ([0x8C, 0x34, 0x12], .styAbs 0x1234)] = true := by decide

/-- The Encoding lines of 43_arith_logic.md: ADC, SBC. -/
theorem test_decode_add_subtract : allRead [
    ([0x69, 0x89], .adcImm 0x89), ([0x65, 0x89], .adcZp 0x89), ([0x75, 0x89], .adcZpX 0x89),
    ([0x6D, 0x34, 0x12], .adcAbs 0x1234), ([0x7D, 0x34, 0x12], .adcAbsX 0x1234), ([0x79, 0x34, 0x12], .adcAbsY 0x1234),
    ([0x61, 0x89], .adcIndX 0x89), ([0x71, 0x89], .adcIndY 0x89), ([0xE9, 0x89], .sbcImm 0x89),
    ([0xE5, 0x89], .sbcZp 0x89), ([0xF5, 0x89], .sbcZpX 0x89), ([0xED, 0x34, 0x12], .sbcAbs 0x1234),
    ([0xFD, 0x34, 0x12], .sbcAbsX 0x1234), ([0xF9, 0x34, 0x12], .sbcAbsY 0x1234), ([0xE1, 0x89], .sbcIndX 0x89),
    ([0xF1, 0x89], .sbcIndY 0x89)] = true := by decide

/-- The Encoding lines of 43_arith_logic.md: AND, ORA, EOR, BIT. -/
theorem test_decode_logic : allRead [
    ([0x29, 0x89], .andImm 0x89), ([0x25, 0x89], .andZp 0x89), ([0x35, 0x89], .andZpX 0x89),
    ([0x2D, 0x34, 0x12], .andAbs 0x1234), ([0x3D, 0x34, 0x12], .andAbsX 0x1234), ([0x39, 0x34, 0x12], .andAbsY 0x1234),
    ([0x21, 0x89], .andIndX 0x89), ([0x31, 0x89], .andIndY 0x89), ([0x09, 0x89], .oraImm 0x89),
    ([0x05, 0x89], .oraZp 0x89), ([0x15, 0x89], .oraZpX 0x89), ([0x0D, 0x34, 0x12], .oraAbs 0x1234),
    ([0x1D, 0x34, 0x12], .oraAbsX 0x1234), ([0x19, 0x34, 0x12], .oraAbsY 0x1234), ([0x01, 0x89], .oraIndX 0x89),
    ([0x11, 0x89], .oraIndY 0x89), ([0x49, 0x89], .eorImm 0x89), ([0x45, 0x89], .eorZp 0x89),
    ([0x55, 0x89], .eorZpX 0x89), ([0x4D, 0x34, 0x12], .eorAbs 0x1234), ([0x5D, 0x34, 0x12], .eorAbsX 0x1234),
    ([0x59, 0x34, 0x12], .eorAbsY 0x1234), ([0x41, 0x89], .eorIndX 0x89), ([0x51, 0x89], .eorIndY 0x89),
    ([0x24, 0x89], .bitZp 0x89), ([0x2C, 0x34, 0x12], .bitAbs 0x1234)] = true := by decide

/-- The Encoding lines of 43_arith_logic.md: CMP, CPX, CPY. -/
theorem test_decode_compares : allRead [
    ([0xC9, 0x89], .cmpImm 0x89), ([0xC5, 0x89], .cmpZp 0x89), ([0xD5, 0x89], .cmpZpX 0x89),
    ([0xCD, 0x34, 0x12], .cmpAbs 0x1234), ([0xDD, 0x34, 0x12], .cmpAbsX 0x1234), ([0xD9, 0x34, 0x12], .cmpAbsY 0x1234),
    ([0xC1, 0x89], .cmpIndX 0x89), ([0xD1, 0x89], .cmpIndY 0x89), ([0xE0, 0x89], .cpxImm 0x89),
    ([0xE4, 0x89], .cpxZp 0x89), ([0xEC, 0x34, 0x12], .cpxAbs 0x1234), ([0xC0, 0x89], .cpyImm 0x89),
    ([0xC4, 0x89], .cpyZp 0x89), ([0xCC, 0x34, 0x12], .cpyAbs 0x1234)] = true := by decide

/-- The Encoding lines of 43_arith_logic.md: INC, DEC, INX, INY, DEX, DEY. -/
theorem test_decode_increments : allRead [
    ([0xE6, 0x89], .incZp 0x89), ([0xF6, 0x89], .incZpX 0x89), ([0xEE, 0x34, 0x12], .incAbs 0x1234),
    ([0xFE, 0x34, 0x12], .incAbsX 0x1234), ([0xC6, 0x89], .decZp 0x89), ([0xD6, 0x89], .decZpX 0x89),
    ([0xCE, 0x34, 0x12], .decAbs 0x1234), ([0xDE, 0x34, 0x12], .decAbsX 0x1234), ([0xE8], .inx), ([0xC8], .iny),
    ([0xCA], .dex), ([0x88], .dey)] = true := by decide

/-- The Encoding lines of 44_shift_rotate.md: ASL, LSR. -/
theorem test_decode_shifts : allRead [
    ([0x0A], .aslAcc), ([0x06, 0x89], .aslZp 0x89), ([0x16, 0x89], .aslZpX 0x89), ([0x0E, 0x34, 0x12], .aslAbs 0x1234),
    ([0x1E, 0x34, 0x12], .aslAbsX 0x1234), ([0x4A], .lsrAcc), ([0x46, 0x89], .lsrZp 0x89),
    ([0x56, 0x89], .lsrZpX 0x89), ([0x4E, 0x34, 0x12], .lsrAbs 0x1234), ([0x5E, 0x34, 0x12], .lsrAbsX 0x1234)] = true := by decide

/-- The Encoding lines of 44_shift_rotate.md: ROL, ROR. -/
theorem test_decode_rotates : allRead [
    ([0x2A], .rolAcc), ([0x26, 0x89], .rolZp 0x89), ([0x36, 0x89], .rolZpX 0x89), ([0x2E, 0x34, 0x12], .rolAbs 0x1234),
    ([0x3E, 0x34, 0x12], .rolAbsX 0x1234), ([0x6A], .rorAcc), ([0x66, 0x89], .rorZp 0x89),
    ([0x76, 0x89], .rorZpX 0x89), ([0x6E, 0x34, 0x12], .rorAbs 0x1234), ([0x7E, 0x34, 0x12], .rorAbsX 0x1234)] = true := by decide

/-- The Encoding lines of 45_control.md: BCC, BCS, BEQ, BNE, BMI, BPL, BVC, BVS. -/
theorem test_decode_branches : allRead [
    ([0x90, 0x89], .bcc 0x89), ([0xB0, 0x89], .bcs 0x89), ([0xF0, 0x89], .beq 0x89), ([0xD0, 0x89], .bne 0x89),
    ([0x30, 0x89], .bmi 0x89), ([0x10, 0x89], .bpl 0x89), ([0x50, 0x89], .bvc 0x89), ([0x70, 0x89], .bvs 0x89)] = true := by decide

/-- The Encoding lines of 45_control.md: JMP, JSR, RTS, BRK, RTI. -/
theorem test_decode_control : allRead [
    ([0x4C, 0x34, 0x12], .jmpAbs 0x1234), ([0x6C, 0x34, 0x12], .jmpInd 0x1234), ([0x20, 0x34, 0x12], .jsr 0x1234),
    ([0x60], .rts), ([0x00], .brk), ([0x40], .rti)] = true := by decide

/-- The Encoding lines of 46_stack.md: PHA, PHP, PLA, PLP. -/
theorem test_decode_stack : allRead [
    ([0x48], .pha), ([0x08], .php), ([0x68], .pla), ([0x28], .plp)] = true := by decide

/-- The Encoding lines of 47_transfer.md: TAX, TAY, TXA, TYA, TSX, TXS. -/
theorem test_decode_transfers : allRead [
    ([0xAA], .tax), ([0xA8], .tay), ([0x8A], .txa), ([0x98], .tya), ([0xBA], .tsx), ([0x9A], .txs)] = true := by decide

/-- The Encoding lines of 48_flags_nop.md: CLC, SEC, CLI, SEI, CLD, SED, CLV, NOP. -/
theorem test_decode_flag_instructions : allRead [
    ([0x18], .clc), ([0x38], .sec), ([0x58], .cli), ([0x78], .sei), ([0xD8], .cld), ([0xF8], .sed), ([0xB8], .clv),
    ([0xEA], .nop)] = true := by decide

/-- 95_test_vectors.md 2.12: five bytes that are decode failures, by name. -/
theorem test_decode_rejects :
    [0x02, 0x03, 0x80, 0x89, 0x9C, 0xFF].all (fun b : Byte =>
      match decode [b, 0x00, 0x00] with
      | .error (.illegalOpcode c) => c == b
      | _ => false) = true := by decide

/-- An instruction cut short is rejected by name (30_encoding.md R60). -/
theorem test_decode_truncated : (match decode [0xAD, 0x34] with | .error .truncated => true | _ => false) = true := by decide

/-- The table's numbering: bits 7 to 0 are the opcode, the operand's low byte follows; a row of 8 bits has operand bytes of zero. -/
theorem test_decodeTableWord_order :
    decodeTableWord 24 0x12346C = some (.jmpInd 0x1234) ∧ decodeTableWord 8 0x12346C = some (.jmpInd 0x0000) ∧
    decodeTableWord 8 0x02 = none := by decide

/-- The placed instruction is the next one executed (95_test_vectors.md W6). -/
theorem test_withFetchWord :
    after (State.reset.withFetchWord 16 0x11A9) (fun t => t.a == 0x11 && t.pc == 0x0602) = true := by decide

/-! ### Addressing modes (95_test_vectors.md 2.1) -/

/-- The wraps of the direct modes. -/
theorem test_direct_modes :
    effectiveAddress (.zeroPageX 0xF0) { State.reset with x := 0x20 } = some 0x0010 ∧
    effectiveAddress (.zeroPageY 0xFF) { State.reset with y := 0x01 } = some 0x0000 ∧
    effectiveAddress (.absoluteX 0xFFF0) { State.reset with x := 0x20 } = some 0x0010 ∧
    effectiveAddress (.absoluteY 0xFFFF) { State.reset with y := 0x01 } = some 0x0000 := by decide

/-- The pointer of JMP (ind) at the end of a page, under both settings of the parameter. -/
theorem test_indirect_mode :
    effectiveAddress (.indirect 0x12FF) (startWith [] [(0x12FF, 0x34), (0x1300, 0x56), (0x1200, 0x78)]) = some 0x5634 ∧
    effectiveAddress (.indirect 0x12FF)
      { startWith [] [(0x12FF, 0x34), (0x1300, 0x56), (0x1200, 0x78)] with
        cfg := { Config.default with jmpIndirectPageWrap := true } } = some 0x7834 := by decide

/-- The pointers of the indexed modes stay in page 0. -/
theorem test_indexed_indirect_modes :
    effectiveAddress (.indexedIndirect 0xFE) { startWith [] [(0x0000, 0x03)] with x := 0x01 } = some 0x0300 ∧
    effectiveAddress (.indirectIndexed 0xFF) (startWith [] [(0x00FF, 0x34), (0x0000, 0x12)]) = some 0x1234 ∧
    effectiveAddress (.indirectIndexed 0x40) { startWith [] [(0x0040, 0xFF), (0x0041, 0xFF)] with y := 0x02 } =
      some 0x0001 := by decide

/-! ### The ALU (95_test_vectors.md 2.2, 2.4, 2.6) -/

/-- A, m, C in, A out, C, V of the ADC table. -/
theorem test_addC :
    ([(0x50, 0x10, false, 0x60, false, false), (0x50, 0x50, false, 0xA0, false, true), (0x50, 0x90, false, 0xE0, false, false),
      (0xD0, 0x50, false, 0x20, true, false), (0xD0, 0x90, false, 0x60, true, true), (0x7F, 0x00, true, 0x80, false, true),
      (0xFF, 0xFF, true, 0xFF, true, false), (0x80, 0x80, false, 0x00, true, true)]
      : List (Byte × Byte × Bool × Byte × Bool × Bool)).all
      (fun (a, m, cin, r, c, v) => addC a m cin == { r := r, c := c, v := v }) = true := by decide

/-- A, m, C in, A out, C, V of the SBC table. -/
theorem test_subC :
    ([(0x50, 0xF0, true, 0x60, false, false), (0x50, 0xB0, true, 0xA0, false, true), (0x50, 0x30, true, 0x20, true, false),
      (0xD0, 0x70, true, 0x60, true, true), (0x00, 0x01, true, 0xFF, false, false), (0x05, 0x05, false, 0xFF, false, false),
      (0x80, 0x01, true, 0x7F, true, true), (0x7F, 0xFF, true, 0x80, false, true)]
      : List (Byte × Byte × Bool × Byte × Bool × Bool)).all
      (fun (a, m, cin, r, c, v) => subC a m cin == { r := r, c := c, v := v }) = true := by decide

/-- Register, m, C, Z, N of the compare table. -/
theorem test_compareBytes :
    ([(0x10, 0x10, true, true, false), (0x10, 0x20, false, false, true), (0x00, 0xFF, false, false, false),
      (0xFF, 0x00, true, false, true), (0x80, 0x01, true, false, false), (0x01, 0x80, false, false, true)]
      : List (Byte × Byte × Bool × Bool × Bool)).all
      (fun (r, m, c, z, n) => compareBytes r m == { c := c, z := z, n := n }) = true := by decide

/-- The rows 0xAA and 0x55 of the shift table. -/
theorem test_shifts :
    asl 0xAA = { r := 0x54, c := true } ∧ lsr 0xAA = { r := 0x55, c := false } ∧
    rol 0xAA true = { r := 0x55, c := true } ∧ ror 0xAA true = { r := 0xD5, c := false } ∧
    asl 0x55 = { r := 0xAA, c := false } ∧ lsr 0x55 = { r := 0x2A, c := true } ∧
    rol 0x55 false = { r := 0xAA, c := false } ∧ ror 0x55 false = { r := 0x2A, c := true } := by decide

/-! ### One step of each instruction -/

/-- 95_test_vectors.md 2.7, `B1 40`. -/
theorem test_lda : after { startWith [0xB1, 0x40] [(0x0041, 0x02), (0x0203, 0x80)] with y := 0x03 }
    (fun t => t.a == 0x80 && t.p.n && !t.p.z && t.pc == 0x0602) = true := by decide

/-- 95_test_vectors.md W7. -/
theorem test_lda_zero : after { start [0xA9, 0x00] with a := 0x05 }
    (fun t => t.a == 0x00 && pByte t.p == 0x02 && t.pc == 0x0602) = true := by decide

/-- 95_test_vectors.md 2.7, `B6 10`: the address wraps to 0x0005. -/
theorem test_ldx : after { startWith [0xB6, 0x10] [(0x0005, 0x7F)] with y := 0xF5 }
    (fun t => t.x == 0x7F && pByte t.p == 0x00) = true := by decide

/-- 95_test_vectors.md 2.7, `BC 00 12`. -/
theorem test_ldy : after { startWith [0xBC, 0x00, 0x12] [(0x1201, 0xFF)] with x := 0x01 }
    (fun t => t.y == 0xFF && pByte t.p == 0x80 && t.pc == 0x0603) = true := by decide

/-- 95_test_vectors.md 2.7, `81 FE`. -/
theorem test_sta : after { startWith [0x81, 0xFE] [(0x0000, 0x03)] with a := 0x99, x := 0x01 }
    (fun t => memRead t.mem 0x0300 == 0x99) = true := by decide

/-- 95_test_vectors.md 2.7, `85 20`: a store writes no flag. -/
theorem test_sta_flags : after { startWith [0x85, 0x20] [(0x0020, 0x55)] with p := pOf 0x80 }
    (fun t => memRead t.mem 0x0020 == 0x00 && pByte t.p == 0x80) = true := by decide

/-- 95_test_vectors.md 2.7, `96 FF`. -/
theorem test_stx : after { start [0x96, 0xFF] with x := 0x12, y := 0x02 }
    (fun t => memRead t.mem 0x0001 == 0x12) = true := by decide

/-- 95_test_vectors.md 2.7, `8C FF FF`. -/
theorem test_sty : after { start [0x8C, 0xFF, 0xFF] with y := 0x34 }
    (fun t => memRead t.mem 0xFFFF == 0x34) = true := by decide

/-- 95_test_vectors.md 2.2, row 0x80 0x80, from P = 0x00 (W2). -/
theorem test_adc : after { start [0x69, 0x80] with a := 0x80 }
    (fun t => t.a == 0x00 && pByte t.p == 0x43) = true := by decide

/-- 95_test_vectors.md 2.2, row 0x01 0x01 with carry, and D = 1. -/
theorem test_adc_decimal : after { start [0x69, 0x01] with a := 0x01, p := pOf 0x09 }
    (fun t => t.a == 0x03 && pByte t.p == 0x08) = true := by decide

/-- 95_test_vectors.md 2.2, row 0x80 0x01 with carry. -/
theorem test_sbc : after { start [0xE9, 0x01] with a := 0x80, p := pOf 0x01 }
    (fun t => t.a == 0x7F && pByte t.p == 0x41) = true := by decide

/-- 95_test_vectors.md 2.3. -/
theorem test_and : after { start [0x29, 0x80] with a := 0xF0, p := pOf 0x41 }
    (fun t => t.a == 0x80 && pByte t.p == 0xC1) = true := by decide

/-- 95_test_vectors.md 2.3. -/
theorem test_ora : after { start [0x09, 0x80] with a := 0x01 } (fun t => t.a == 0x81 && pByte t.p == 0x80) = true := by decide

/-- 95_test_vectors.md 2.3. -/
theorem test_eor : after { start [0x49, 0xFF] with a := 0xFF } (fun t => t.a == 0x00 && pByte t.p == 0x02) = true := by decide

/-- 95_test_vectors.md 2.3: N and V are bits of the operand, A is unchanged. -/
theorem test_bit : after { startWith [0x24, 0x10] [(0x0010, 0xC0)] with a := 0x0F }
    (fun t => t.a == 0x0F && pByte t.p == 0xC2) = true := by decide

/-- 95_test_vectors.md 2.4: V is unchanged. -/
theorem test_cmp : after { start [0xC9, 0x20] with a := 0x10, p := pOf 0x41 }
    (fun t => t.a == 0x10 && pByte t.p == 0xC0) = true := by decide

/-- 95_test_vectors.md 2.4. -/
theorem test_cpx : after { start [0xE0, 0x00] with x := 0xFF } (fun t => t.x == 0xFF && pByte t.p == 0x81) = true := by decide

/-- 95_test_vectors.md 2.4. -/
theorem test_cpy : after { start [0xC0, 0x10] with y := 0x10 } (fun t => t.y == 0x10 && pByte t.p == 0x03) = true := by decide

/-- 95_test_vectors.md 2.5, `E6 10`. -/
theorem test_inc : after (startWith [0xE6, 0x10] [(0x0010, 0xFF)])
    (fun t => memRead t.mem 0x0010 == 0x00 && pByte t.p == 0x02) = true := by decide

/-- 95_test_vectors.md 2.5, `DE 34 12`. -/
theorem test_dec : after { startWith [0xDE, 0x34, 0x12] [(0x1239, 0x80)] with x := 0x05 }
    (fun t => memRead t.mem 0x1239 == 0x7F && !t.p.n) = true := by decide

/-- 95_test_vectors.md 2.5: C and V are unchanged. -/
theorem test_inx : after { start [0xE8] with x := 0x7F, p := pOf 0x41 }
    (fun t => t.x == 0x80 && pByte t.p == 0xC1) = true := by decide

/-- 95_test_vectors.md 2.5. -/
theorem test_iny : after { start [0xC8] with y := 0xFF } (fun t => t.y == 0x00 && pByte t.p == 0x02) = true := by decide

/-- 95_test_vectors.md 2.5. -/
theorem test_dex : after (start [0xCA]) (fun t => t.x == 0xFF && pByte t.p == 0x80) = true := by decide

/-- 95_test_vectors.md 2.5. -/
theorem test_dey : after { start [0x88] with y := 0x01 } (fun t => t.y == 0x00 && pByte t.p == 0x02) = true := by decide

/-- 95_test_vectors.md 2.6, `16 44`. -/
theorem test_asl : after { startWith [0x16, 0x44] [(0x0043, 0x01)] with x := 0xFF }
    (fun t => memRead t.mem 0x0043 == 0x02 && t.a == 0x00) = true := by decide

/-- 95_test_vectors.md 2.6, `46 44`. -/
theorem test_lsr : after (startWith [0x46, 0x44] [(0x0044, 0x81)])
    (fun t => memRead t.mem 0x0044 == 0x40 && pByte t.p == 0x01 && t.a == 0x00) = true := by decide

/-- 95_test_vectors.md 2.6, row 0x00 with carry. -/
theorem test_rol : after { start [0x2A] with p := pOf 0x01 }
    (fun t => t.a == 0x01 && pByte t.p == 0x00 && t.pc == 0x0601) = true := by decide

/-- 95_test_vectors.md 2.6, row 0x00 with carry. -/
theorem test_ror : after { start [0x6A] with p := pOf 0x01 } (fun t => t.a == 0x80 && pByte t.p == 0x80) = true := by decide

/-- 95_test_vectors.md 2.8, BCC taken and not taken. -/
theorem test_bcc : after (start [0x90, 0x0E]) (fun t => t.pc == 0x0610) = true ∧
    after { start [0x90, 0x0E] with p := pOf 0x01 } (fun t => t.pc == 0x0602) = true := by decide

/-- 95_test_vectors.md 2.8, BCS. -/
theorem test_bcs : after { State.reset with pc := 0x060B, p := pOf 0x01, mem := fill [] 0x060B [0xB0, 0x02] }
    (fun t => t.pc == 0x060F) = true := by decide

/-- 95_test_vectors.md 2.8, BNE backward. -/
theorem test_bne : after { State.reset with pc := 0x060A, mem := fill [] 0x060A [0xD0, 0xF8] }
    (fun t => t.pc == 0x0604) = true := by decide

/-- 95_test_vectors.md 2.8, BEQ not taken, and the branch to itself. -/
theorem test_beq : after (start [0xF0, 0xF8]) (fun t => t.pc == 0x0602) = true ∧
    after { start [0xF0, 0xFE] with p := pOf 0x02 } (fun t => t.pc == 0x0600 && pByte t.p == 0x02) = true := by decide

/-- 95_test_vectors.md 2.8, BMI. -/
theorem test_bmi : after { start [0x30, 0x7E] with p := pOf 0x80 } (fun t => t.pc == 0x0680) = true := by decide

/-- 95_test_vectors.md 2.8, BPL. -/
theorem test_bpl : after (start [0x10, 0x80]) (fun t => t.pc == 0x0582) = true := by decide

/-- 95_test_vectors.md 2.8, BVC with offset 0; with V = 1 it is not taken. -/
theorem test_bvc : after (start [0x50, 0x00]) (fun t => t.pc == 0x0602) = true ∧
    after { start [0x50, 0x10] with p := pOf 0x40 } (fun t => t.pc == 0x0602) = true := by decide

/-- 95_test_vectors.md 2.8, BVS, whose target wraps. -/
theorem test_bvs : after { State.reset with pc := 0xFFF0, p := pOf 0x40, mem := fill [] 0xFFF0 [0x70, 0x7F] }
    (fun t => t.pc == 0x0071) = true := by decide

/-- 95_test_vectors.md 2.8, JMP indirect. -/
theorem test_jmp : after (startWith [0x6C, 0x00, 0x02] [(0x0200, 0x10), (0x0201, 0x06)])
    (fun t => t.pc == 0x0610 && t.sp == 0xFF) = true ∧
    after (start [0x4C, 0x34, 0x12]) (fun t => t.pc == 0x1234) = true := by decide

/-- 95_test_vectors.md 2.8, JSR. -/
theorem test_jsr : after (start [0x20, 0x34, 0x12])
    (fun t => t.pc == 0x1234 && t.sp == 0xFD && memRead t.mem 0x01FF == 0x06 && memRead t.mem 0x01FE == 0x02) = true := by
  decide

/-- 95_test_vectors.md 2.9, JSR with one byte left. -/
theorem test_jsr_fault : faulted { start [0x20, 0x34, 0x12] with sp := 0x01 }
    (fun r t => r.cause.code == 2 && t.sp == 0x00 && t.pc == 0x0603 && memRead t.mem 0x0101 == 0x06) = true := by decide

/-- 95_test_vectors.md 2.8, RTS of 0xFFFF. -/
theorem test_rts : after { startWith [0x60] [(0x01FE, 0xFF), (0x01FF, 0xFF)] with sp := 0xFD }
    (fun t => t.pc == 0x0000 && t.sp == 0xFF) = true := by decide

/-- 95_test_vectors.md 2.8, BRK. -/
theorem test_brk : after { startWith [0x00] [(0xFFFF, 0x80)] with p := pOf 0x01 }
    (fun t => t.pc == 0x8000 && t.sp == 0xFC && pByte t.p == 0x05 && memRead t.mem 0x01FF == 0x06 &&
      memRead t.mem 0x01FE == 0x02 && memRead t.mem 0x01FD == 0x31) = true := by decide

/-- 95_test_vectors.md 2.8, RTI of a byte with bit 5 = 1. -/
theorem test_rti : after { startWith [0x40] [(0x01FD, 0xFF), (0x01FF, 0x07)] with sp := 0xFC }
    (fun t => t.pc == 0x0700 && pByte t.p == 0xDF && t.sp == 0xFF) = true := by decide

/-- 95_test_vectors.md 2.9, PHA, and at the bottom under `Wrap`. -/
theorem test_pha : after { start [0x48] with a := 0x42 } (fun t => memRead t.mem 0x01FF == 0x42 && t.sp == 0xFE) = true ∧
    after { wrapAt 0x00 with a := 0x55, mem := fill [] 0x0600 [0x48] }
      (fun t => memRead t.mem 0x0100 == 0x55 && t.sp == 0xFF) = true := by decide

/-- 95_test_vectors.md 2.9, PHA at the bottom under `Fatal`. -/
theorem test_pha_fault : faulted { start [0x48] with a := 0x42, sp := 0x00 }
    (fun r t => r.cause.code == 2 && t.sp == 0x00 && memRead t.mem 0x0100 == 0x00 && t.pc == 0x0601) = true := by decide

/-- 95_test_vectors.md 2.9, PHP of P = 0xC3. -/
theorem test_php : after { start [0x08] with p := pOf 0xC3 }
    (fun t => memRead t.mem 0x01FF == 0xF3 && pByte t.p == 0xC3) = true := by decide

/-- 95_test_vectors.md 2.9, PLA, and P5 b under `Wrap`. -/
theorem test_pla : after { startWith [0x68] [(0x01FF, 0x80)] with sp := 0xFE }
    (fun t => t.a == 0x80 && t.sp == 0xFF && pByte t.p == 0x80) = true ∧
    after { wrapAt 0xFF with mem := (startWith [0x68] [(0x0100, 0x80)]).mem }
      (fun t => t.a == 0x80 && t.sp == 0x00 && pByte t.p == 0x80 && t.pc == 0x0601) = true := by decide

/-- 95_test_vectors.md P5 b under `Fatal`. -/
theorem test_pla_fault : faulted (start [0x68])
    (fun r t => r.cause.code == 3 && r.address == 0x0600 && t.sp == 0xFF && t.a == 0x00 && t.pc == 0x0601) = true := by decide

/-- 95_test_vectors.md 2.9, PLP: every flag but U; bit 5 alone loads nothing. -/
theorem test_plp : after { startWith [0x28] [(0x01FF, 0xFF)] with sp := 0xFE } (fun t => pByte t.p == 0xDF) = true ∧
    after { startWith [0x28] [(0x01FF, 0x20)] with sp := 0xFE } (fun t => pByte t.p == 0x00) = true := by decide

/-- 95_test_vectors.md 2.10. -/
theorem test_tax : after { start [0xAA] with a := 0x80 } (fun t => t.x == 0x80 && pByte t.p == 0x80) = true := by decide

/-- 95_test_vectors.md 2.10. -/
theorem test_tay : after { start [0xA8] with y := 0x05 } (fun t => t.y == 0x00 && pByte t.p == 0x02) = true := by decide

/-- 95_test_vectors.md 2.10. -/
theorem test_txa : after { start [0x8A] with x := 0x7F } (fun t => t.a == 0x7F && pByte t.p == 0x00) = true := by decide

/-- 95_test_vectors.md 2.10. -/
theorem test_tya : after { start [0x98] with y := 0xFF } (fun t => t.a == 0xFF && pByte t.p == 0x80) = true := by decide

/-- 95_test_vectors.md 2.10. -/
theorem test_tsx : after (start [0xBA]) (fun t => t.x == 0xFF && pByte t.p == 0x80) = true := by decide

/-- 95_test_vectors.md 2.10: TXS writes no flag. -/
theorem test_txs : after (start [0x9A]) (fun t => t.sp == 0x00 && pByte t.p == 0x00) = true := by decide

/-- 95_test_vectors.md 2.11: P before and after CLC, SEC, CLI, SEI, CLD, SED, CLV. -/
theorem test_flag_instructions :
    ([(0x18, 0xFF, 0xFE), (0x38, 0x00, 0x01), (0x58, 0x04, 0x00), (0x78, 0x00, 0x04), (0xD8, 0x08, 0x00), (0xF8, 0x00, 0x08),
      (0xB8, 0x40, 0x00)] : List (Byte × Byte × Byte)).all
      (fun (b, p, q) => after { start [b] with p := pOf p } (fun t => pByte t.p == q && t.pc == 0x0601)) = true := by decide

/-- 95_test_vectors.md 2.11: NOP changes PC and nothing else. -/
theorem test_nop : after { start [0xEA] with p := pOf 0xA5 }
    (fun t => decide (t = { start [0xEA] with p := pOf 0xA5, pc := 0x0601 })) = true := by decide

/-- 95_test_vectors.md P5 a. -/
theorem test_decode_failure : faulted (start [0x02])
    (fun r t => decide (r.cause = .decodeFailure 0x02) && r.cause.code == 1 && r.address == 0x0600 && t.pc == 0x0600) = true := by
  decide

/-- 95_test_vectors.md 2.12: `run(0)` executes nothing; a run after a fault gives the same record. -/
theorem test_run : runLimit 0 (start [0x02]) = (.limitReached, start [0x02]) ∧
    runLimit 5 (runLimit 5 (start [0x02])).2 = runLimit 5 (start [0x02]) := by decide

/-- 70_reset_and_hazards.md R261: the start address under `Vector`. -/
theorem test_startPc_vector :
    startPc { Config.default with startMode := .vector } (fill [] 0xFFFC [0x00, 0x80]) = 0x8000 := by decide

/-- 20_memory.md R44: INC makes one data read and one write, no dummy write; `abs,X` across a page makes no dummy read. -/
theorem test_accesses :
    stepAccesses (startWith [0xE6, 0x10] [(0x0010, 0xFF)]) =
      [.read 0x0600 0xE6, .read 0x0601 0x10, .read 0x0010 0xFF, .write 0x0010 0x00] ∧
    stepAccesses { startWith [0xBD, 0xF0, 0x12] [(0x1310, 0x77)] with x := 0x20 } =
      [.read 0x0600 0xBD, .read 0x0601 0xF0, .read 0x0602 0x12, .read 0x1310 0x77] := by decide

/-- 45_control.md R193: three pushes, then the vector, low byte first; under `Fatal` with one byte left, one push. -/
theorem test_accesses_brk :
    stepAccesses { startWith [0x00] [(0xFFFF, 0x80)] with p := pOf 0x01 } =
      [.read 0x0600 0x00, .write 0x01FF 0x06, .write 0x01FE 0x02, .write 0x01FD 0x31, .read 0xFFFE 0x00, .read 0xFFFF 0x80] ∧
    stepAccesses { start [0x00] with sp := 0x01 } = [.read 0x0600 0x00, .write 0x0101 0x06] := by decide

/-- 40_addressing.md R92, R94 and 46_stack.md: a pointer in page 0, low byte first, then the data; RTS pops low then high. -/
theorem test_accesses_pointer :
    stepAccesses { startWith [0xB1, 0xFF] [(0x00FF, 0x34), (0x0000, 0x12), (0x1235, 0x99)] with y := 0x01 } =
      [.read 0x0600 0xB1, .read 0x0601 0xFF, .read 0x00FF 0x34, .read 0x0000 0x12, .read 0x1235 0x99] ∧
    stepAccesses { startWith [0x60] [(0x01FE, 0x02), (0x01FF, 0x06)] with sp := 0xFD } =
      [.read 0x0600 0x60, .read 0x01FE 0x02, .read 0x01FF 0x06] := by decide

/-- 30_encoding.md R70: the example of each mode. -/
theorem test_assembly :
    String.ofList (assemblyText 0 .inx) = "INX" ∧ String.ofList (assemblyText 0 .lsrAcc) = "LSR A" ∧
    String.ofList (assemblyText 0 (.ldaImm 0x11)) = "LDA #$11" ∧ String.ofList (assemblyText 0 (.ldaZp 0x44)) = "LDA $44" ∧
    String.ofList (assemblyText 0 (.ldaZpX 0x44)) = "LDA $44,X" ∧ String.ofList (assemblyText 0 (.ldxZpY 0x44)) = "LDX $44,Y" ∧
    String.ofList (assemblyText 0 (.jmpAbs 0x1234)) = "JMP $1234" ∧ String.ofList (assemblyText 0 (.ldaAbsX 0x1234)) = "LDA $1234,X" ∧
    String.ofList (assemblyText 0 (.ldaAbsY 0x1234)) = "LDA $1234,Y" ∧ String.ofList (assemblyText 0 (.jmpInd 0x1234)) = "JMP ($1234)" ∧
    String.ofList (assemblyText 0 (.ldaIndX 0x44)) = "LDA ($44,X)" ∧ String.ofList (assemblyText 0 (.ldaIndY 0x44)) = "LDA ($44),Y" := by
  decide

/-- 45_control.md R184 and 95_test_vectors.md P2: `BNE $0604` at 0x060A is D0 F8, `BNE $0605` there is D0 F9. -/
theorem test_branchOffset :
    branchOffset 0x060A 0x0604 = some 0xF8 ∧ branchOffset 0x060A 0x0605 = some 0xF9 ∧ branchOffset 0xFFF0 0x0071 = some 0x7F ∧
    branchOffset 0x0600 0x0682 = none := by decide

/-! ### Witnesses: states and operands that meet the hypotheses of the statements, at the ends of their ranges -/

theorem witness_EncodeOfDecode : decode [0xAD, 0x34, 0x12, 0xEA] = .ok (.ldaAbs 0x1234, [0xEA]) := rfl

theorem witness_LengthByMode :
    Instr.nop.mode ∈ [Mode.implicit, .accumulator] ∧ Instr.rorAcc.mode ∈ [Mode.implicit, .accumulator] ∧
    (Instr.ldaIndY 0xFF).mode ∈ [Mode.immediate, .zeroPage, .zeroPageX, .zeroPageY, .relative, .indexedIndirect, .indirectIndexed] ∧
    (Instr.jmpInd 0xFFFF).mode ∈ [Mode.absolute, .absoluteX, .absoluteY, .indirect] := by decide

theorem witness_IllegalBytesFail :
    (start [0x02]).run = .running ∧ memRead (start [0x02]).mem (start [0x02]).pc ∈ illegalBytes ∧
    memRead (start [0xFF]).mem (start [0xFF]).pc ∈ illegalBytes := by decide

theorem witness_DecodeFailureChangesNothing :
    (start [0x02]).run = .running ∧ decodeOpcode (memRead (start [0x02]).mem (start [0x02]).pc) = none := by decide

theorem witness_StepRunsDecodedInstruction :
    let s := start [0xAD, 0x34, 0x12]
    s.run = .running ∧
      decode [memRead s.mem s.pc, memRead s.mem (s.pc + 1), memRead s.mem (s.pc + 2)] = .ok (.ldaAbs 0x1234, []) := ⟨rfl, rfl⟩

/-- The instruction lies across the end of the address space. -/
theorem witness_StoredEncodingRuns :
    let s := { State.reset with pc := 0xFFFF, mem := fill [] 0xFFFF [0xAD, 0x34, 0x12] }
    s.run = .running ∧ ∀ k b, (encode (.ldaAbs 0x1234))[k]? = some b → memRead s.mem (s.pc + BitVec.ofNat 16 k) = b := by
  refine ⟨rfl, fun k b h => ?_⟩
  match k with
  | 0 => exact Option.some.inj h
  | 1 => exact Option.some.inj h
  | 2 => exact Option.some.inj h
  | k + 3 => simp [encode, operandBytes, Instr.operand] at h

theorem witness_StoreIntoCodeIsFetched :
    let s := { start [0x8D, 0x03, 0x06] with a := 0xE8 }
    s.run = .running ∧ s.mem.wf = true ∧ encode .inx = [s.a] ∧ ∃ t, exec (.staAbs (s.pc + 3)) s = .next t :=
  ⟨rfl, by decide, rfl, _, rfl⟩

theorem witness_FaultHaltsForGood :
    (∃ f, step (start [0x02]) = .fault f) ∧ ∃ (s : State) (r : FaultRecord), s.run = .halted r :=
  ⟨⟨_, rfl⟩, (runLimit 1 (start [0x02])).2, _, rfl⟩

/-- One run of each kind: halted at once, limit reached after no and after one step, a fault after one step. -/
theorem witness_RunLimitMeaning :
    (∃ r t, runLimit 0 (runLimit 1 (start [0x02])).2 = (.faulted r, t)) ∧
    runLimit 0 State.reset = (.limitReached, State.reset) ∧
    (∃ t, runLimit 1 (start [0xEA, 0x02]) = (.limitReached, t)) ∧
    ∃ r t, runLimit 2 (start [0xEA, 0x02]) = (.faulted r, t) :=
  ⟨⟨_, _, rfl⟩, rfl, ⟨_, rfl⟩, _, _, rfl⟩

theorem witness_UnlimitedRunStopsOnlyByFault : ∃ r t, RunsToFault (start [0xEA, 0x02]) r t := ⟨_, _, 2, rfl⟩

/-- And a run that never stops: `JMP $0600` at 0x0600 reaches every limit (here the first). -/
theorem witness_UnlimitedRun_endless : runLimit 1 (start [0x4C, 0x00, 0x06]) = (.limitReached, start [0x4C, 0x00, 0x06]) := by
  decide

theorem witness_WriteChangesOneByte :
    Memory.wf [(0x0000, 0x01), (0xFFFF, 0xFF)] = true ∧ (0x0000 : Word) ≠ 0xFFFF := by decide

theorem witness_EqualReadsEqualMemory :
    let m := fill [] 0xFFFF [0x01, 0x02]
    let m' := memWrite (memWrite [] 0x0000 0x02) 0xFFFF 0x01
    m.wf = true ∧ m'.wf = true ∧ ∀ a : Word, memRead m a = memRead m' a :=
  ⟨by decide, by decide, fun _ => rfl⟩

theorem witness_LittleEndianWords : (0xFE : Byte) ≠ 0xFF ∧ (0x00 : Byte) ≠ 0xFF := by decide

theorem witness_DirectModesAddress :
    (Instr.ldxZpY 0xFF).mode = .zeroPageY ∧ (Instr.stxZpY 0x00).mode = .zeroPageY := by decide

theorem witness_IndirectModesAddress :
    State.reset.cfg.jmpIndirectPageWrap = false ∧
    ({ State.reset with cfg := { Config.default with jmpIndirectPageWrap := true } } : State).cfg.jmpIndirectPageWrap = true ∧
    (Instr.jmpInd 0x12FF).mode = .indirect := by decide

theorem witness_OperandValues :
    ([.zeroPage 0xFF, .zeroPageX 0xFF, .zeroPageY 0xFF, .absolute 0xFFFF, .absoluteX 0xFFFF, .absoluteY 0xFFFF,
      .indexedIndirect 0xFF, .indirectIndexed 0xFF] : List Operand).all (fun o => decide (o.mode ∈
        [Mode.zeroPage, .zeroPageX, .zeroPageY, .absolute, .absoluteX, .absoluteY, .indexedIndirect, .indirectIndexed])) = true := by
  decide

theorem witness_ContractViolationUnreached :
    Operand.implicit.mode ∈ [Mode.implicit, .accumulator, .immediate] ∧
    Operand.accumulator.mode ∈ [Mode.implicit, .accumulator, .immediate] ∧
    (Operand.immediate 0xFF).mode ∈ [Mode.implicit, .accumulator, .immediate] ∧
    (∃ f, exec .pha (fatalAt 0x00) = .fault f) ∧ ∃ f, exec .pla (fatalAt 0xFF) = .fault f :=
  ⟨by decide, by decide, by decide, ⟨_, rfl⟩, _, rfl⟩

theorem witness_DecimalModeIgnored :
    (Instr.adcImm 0x99).op ∈ [Op.adc, .sbc] ∧ (Instr.sbcIndY 0xFF).op ∈ [Op.adc, .sbc] := by decide

theorem witness_LoadResults : (Instr.ldaIndX 0xFF).op = .lda ∧ (Instr.ldxZpY 0xFF).op = .ldx ∧ (Instr.ldyAbsX 0xFFFF).op = .ldy := by
  decide

theorem witness_StoreResults : (Instr.staIndY 0xFF).op = .sta ∧ (Instr.stxZpY 0xFF).op = .stx ∧ (Instr.styAbs 0xFFFF).op = .sty := by
  decide

theorem witness_AddSubtractResults : (Instr.adcImm 0x00).op = .adc ∧ (Instr.sbcAbsX 0xFFFF).op = .sbc := by decide

theorem witness_LogicResults : (Instr.andImm 0x00).op = .and ∧ (Instr.oraZp 0xFF).op = .ora ∧ (Instr.eorAbsY 0xFFFF).op = .eor := by
  decide

theorem witness_BitResult : (Instr.bitZp 0xFF).op = .bit ∧ (Instr.bitAbs 0x0000).op = .bit := by decide

theorem witness_CompareResults : (Instr.cmpIndX 0xFF).op = .cmp ∧ (Instr.cpxImm 0x00).op = .cpx ∧ (Instr.cpyAbs 0xFFFF).op = .cpy := by
  decide

theorem witness_MemoryIncDecResults : (Instr.incZpX 0xFF).op = .inc ∧ (Instr.decAbsX 0xFFFF).op = .dec := by decide

theorem witness_ShiftResults :
    ([.aslZp 0x00, .lsrZpX 0xFF, .rolAbs 0x0000, .rorAbsX 0xFFFF] : List Instr).all
      (fun i => decide (i.op ∈ [Op.asl, .lsr, .rol, .ror] ∧ i.mode ≠ .accumulator)) = true ∧
    (Instr.aslZp 0x00).op = .asl ∧ (Instr.lsrZpX 0xFF).op = .lsr ∧ (Instr.rolAbs 0x0000).op = .rol ∧
    (Instr.rorAbsX 0xFFFF).op = .ror := by decide

/-- Two pushes: complete at SP = 0x02 and, under `Wrap`, at 0x00; the two faults at 0x00 and 0x01. -/
theorem witness_JsrResult :
    ¬ (Fatal (fatalAt 0x02) ∧ (fatalAt 0x02).sp.toNat ≤ 1) ∧ ¬ (Fatal (wrapAt 0x00) ∧ (wrapAt 0x00).sp.toNat ≤ 1) ∧
    (Fatal (fatalAt 0x00) ∧ (fatalAt 0x00).sp = 0) ∧ (Fatal (fatalAt 0x01) ∧ (fatalAt 0x01).sp = 1) := by
  unfold Fatal; decide

/-- Two pops: complete at SP = 0xFD and, under `Wrap`, at 0xFF; the two faults at 0xFF and 0xFE. -/
theorem witness_RtsResult :
    ¬ (Fatal (fatalAt 0xFD) ∧ 0xFE ≤ (fatalAt 0xFD).sp.toNat) ∧ ¬ (Fatal (wrapAt 0xFF) ∧ 0xFE ≤ (wrapAt 0xFF).sp.toNat) ∧
    (Fatal (fatalAt 0xFF) ∧ (fatalAt 0xFF).sp = 0xFF) ∧ (Fatal (fatalAt 0xFE) ∧ (fatalAt 0xFE).sp = 0xFE) := by
  unfold Fatal; decide

/-- Three pushes: complete at SP = 0x03 and, under `Wrap`, at 0x00; the three faults at 0x00, 0x01 and 0x02. -/
theorem witness_BrkResult :
    ¬ (Fatal (fatalAt 0x03) ∧ (fatalAt 0x03).sp.toNat ≤ 2) ∧ ¬ (Fatal (wrapAt 0x00) ∧ (wrapAt 0x00).sp.toNat ≤ 2) ∧
    (Fatal (fatalAt 0x00) ∧ (fatalAt 0x00).sp = 0) ∧ (Fatal (fatalAt 0x01) ∧ (fatalAt 0x01).sp = 1) ∧
    (Fatal (fatalAt 0x02) ∧ (fatalAt 0x02).sp = 2) := by
  unfold Fatal; decide

/-- Three pops: complete at SP = 0xFC and, under `Wrap`, at 0xFF; the three faults at 0xFF, 0xFE and 0xFD. -/
theorem witness_RtiResult :
    ¬ (Fatal (fatalAt 0xFC) ∧ 0xFD ≤ (fatalAt 0xFC).sp.toNat) ∧ ¬ (Fatal (wrapAt 0xFF) ∧ 0xFD ≤ (wrapAt 0xFF).sp.toNat) ∧
    (Fatal (fatalAt 0xFF) ∧ (fatalAt 0xFF).sp = 0xFF) ∧
    (Fatal (fatalAt 0xFE) ∧ ((fatalAt 0xFE).sp = 0xFE ∨ (fatalAt 0xFE).sp = 0xFD)) ∧
    (Fatal (fatalAt 0xFD) ∧ ((fatalAt 0xFD).sp = 0xFE ∨ (fatalAt 0xFD).sp = 0xFD)) := by
  unfold Fatal; decide

/-- One push: complete at SP = 0x01 and, under `Wrap`, at 0x00; the fault at 0x00. One pop: at 0xFE and 0xFF; the fault at 0xFF. -/
theorem witness_PhaPlaResults :
    ¬ (Fatal (fatalAt 0x01) ∧ (fatalAt 0x01).sp = 0) ∧ ¬ (Fatal (wrapAt 0x00) ∧ (wrapAt 0x00).sp = 0) ∧
    (Fatal (fatalAt 0x00) ∧ (fatalAt 0x00).sp = 0) ∧
    ¬ (Fatal (fatalAt 0xFE) ∧ (fatalAt 0xFE).sp = 0xFF) ∧ ¬ (Fatal (wrapAt 0xFF) ∧ (wrapAt 0xFF).sp = 0xFF) ∧
    (Fatal (fatalAt 0xFF) ∧ (fatalAt 0xFF).sp = 0xFF) := by
  unfold Fatal; decide

/-- The hypotheses are those of `PhaPlaResults`. -/
theorem witness_PhpPlpResults :
    ¬ (Fatal (fatalAt 0x01) ∧ (fatalAt 0x01).sp = 0) ∧ ¬ (Fatal (wrapAt 0x00) ∧ (wrapAt 0x00).sp = 0) ∧
    (Fatal (fatalAt 0x00) ∧ (fatalAt 0x00).sp = 0) ∧
    ¬ (Fatal (fatalAt 0xFE) ∧ (fatalAt 0xFE).sp = 0xFF) ∧ ¬ (Fatal (wrapAt 0xFF) ∧ (wrapAt 0xFF).sp = 0xFF) ∧
    (Fatal (fatalAt 0xFF) ∧ (fatalAt 0xFF).sp = 0xFF) := witness_PhaPlaResults

/-- Each register does change somewhere: LDA, TSX, LDY, TXS. -/
theorem witness_RegisterFrame :
    (∃ t, exec (.ldaImm 0x11) State.reset = .next t ∧ t.a ≠ State.reset.a) ∧
    (∃ t, exec .tsx State.reset = .next t ∧ t.x ≠ State.reset.x) ∧
    (∃ t, exec (.ldyImm 0x11) State.reset = .next t ∧ t.y ≠ State.reset.y) ∧
    ∃ t, exec .txs State.reset = .next t ∧ t.sp ≠ State.reset.sp :=
  ⟨⟨_, rfl, by decide⟩, ⟨_, rfl, by decide⟩, ⟨_, rfl, by decide⟩, _, rfl, by decide⟩

theorem witness_FlagFrame :
    (∃ t, exec .sec State.reset = .next t ∧ t.p.c ≠ State.reset.p.c) ∧
    ∃ t, exec .plp { startWith [] [(0x01FF, 0xFF)] with sp := 0xFE } = .next t ∧ t.p.b = true ∧ t.p.u = false :=
  ⟨⟨_, rfl, by decide⟩, _, rfl, by decide, by decide⟩

/-- PC wraps past the instruction. -/
theorem witness_PcPastInstruction :
    (∃ t, exec (.ldaAbs 0x1234) { State.reset with pc := 0xFFFE } = .next t ∧ t.pc = 0x0001) ∧
    (Instr.ldaAbs 0x1234).op ∉ controlOps :=
  ⟨⟨_, rfl, by decide⟩, by decide⟩

theorem witness_NonStoringMemoryFrame :
    (∃ t, exec (.ldaImm 0x11) State.reset = .next t) ∧ (Instr.ldaImm 0x11).op ∉ pushingOps ∧
    (Instr.ldaImm 0x11).op ∉ storingOps ∧
    (∃ t, exec .aslAcc State.reset = .next t) ∧ Instr.aslAcc.op ∉ pushingOps ∧ Instr.aslAcc.mode = .accumulator :=
  ⟨⟨_, rfl⟩, by decide, by decide, ⟨_, rfl⟩, by decide, rfl⟩

/-- The four clauses: a byte next to the stored one, and the byte just under the last push. -/
theorem witness_StoringMemoryFrame :
    State.reset.mem.wf = true ∧
    ((∃ t, exec (.staAbs 0xFFFF) State.reset = .next t) ∧ (Instr.staAbs 0xFFFF).op ∈ storingOps ∧
      effectiveAddress (Instr.staAbs 0xFFFF).operand State.reset = some 0xFFFF ∧ (0x0000 : Word) ≠ 0xFFFF) ∧
    ((∃ t, exec .pha State.reset = .next t) ∧ (∃ t, exec .php State.reset = .next t) ∧
      (0x01FE : Word) ≠ stackAddr State.reset.cfg State.reset.sp) ∧
    ((∃ t, exec (.jsr 0x1234) State.reset = .next t) ∧ (0x01FD : Word) ≠ stackAddr State.reset.cfg State.reset.sp ∧
      (0x01FD : Word) ≠ stackAddr State.reset.cfg (State.reset.sp - 1)) ∧
    ((∃ t, exec .brk State.reset = .next t) ∧ (0x01FC : Word) ≠ stackAddr State.reset.cfg State.reset.sp ∧
      (0x01FC : Word) ≠ stackAddr State.reset.cfg (State.reset.sp - 1) ∧
      (0x01FC : Word) ≠ stackAddr State.reset.cfg (State.reset.sp - 2)) :=
  ⟨by decide, ⟨⟨_, rfl⟩, by decide, rfl, by decide⟩, ⟨⟨_, rfl⟩, ⟨_, rfl⟩, by decide⟩, ⟨⟨_, rfl⟩, by decide, by decide⟩,
    ⟨_, rfl⟩, by decide, by decide, by decide⟩

theorem witness_StackStaysInPage : stackAddr Config.default 0xFF = stackAddr Config.default 0xFF ∧
    stackAddr { Config.default with stackPage := 0xFF } 0xFF = 0xFFFF := by decide

/-- A step that completes, and one that faults after one write. -/
theorem witness_AccessesReplay :
    (∃ t, step (start [0xE6, 0x10]) = .next t) ∧ ∃ f, step { start [0x20, 0x34, 0x12] with sp := 0x01 } = .fault f :=
  ⟨⟨_, rfl⟩, _, rfl⟩

/-- The nearest and the farthest target. -/
theorem witness_BranchOffsetIsInverse :
    branchOffset 0x0600 0x0681 = some 0x7F ∧ branchOffset 0x0600 0x0582 = some 0x80 := by decide

theorem witness_StepKeepsInvariant :
    Inv (start [0xEA]) ∧ (∃ t, exec .nop (start [0xEA]) = .next t) ∧ (∃ t, step (start [0xEA]) = .next t) ∧
    ∃ t, RunsClean 1 (start [0xEA]) t :=
  ⟨⟨by decide, rfl, rfl⟩, ⟨_, rfl⟩, ⟨_, rfl⟩, _, rfl⟩

/-- Both start modes, with an image in canonical form that has the vector in it. -/
theorem witness_ConstructionValues :
    Memory.wf [(0xFFFC, 0x01), (0xFFFD, 0x80)] = true ∧ Config.default.startMode = .fixedStart ∧
    ({ Config.default with startMode := .vector } : Config).startMode = .vector := by decide

theorem witness_UnusedFlagIsNotRead : ∃ t, exec .php State.reset = .next t := ⟨_, rfl⟩

theorem witness_BreakIsNotReadAndInterruptMasksNothing :
    (∃ t, exec .brk State.reset = .next t) ∧ (∃ t, exec .sei State.reset = .next t) ∧ Instr.sei.op ∉ [Op.php, .brk] :=
  ⟨⟨_, rfl⟩, ⟨_, rfl⟩, by decide⟩

theorem witness_OnlyTheStackFaults :
    ¬ Fatal (wrapAt 0x00) ∧ Instr.nop.op ∉ pushingOps ++ poppingOps ∧
    (∃ f, exec .brk (fatalAt 0x02) = .fault f) ∧ ∃ f, exec .rti (fatalAt 0xFD) = .fault f :=
  ⟨by unfold Fatal; decide, by decide, ⟨_, rfl⟩, _, rfl⟩

/-- The subroutine changed A; SP is at its lowest, 0x02 before the call. -/
theorem witness_CallThenReturn :
    ∃ t u : State, (fatalAt 0x02).mem.wf = true ∧ exec (.jsr 0x1234) (fatalAt 0x02) = .next t ∧ u.a ≠ t.a ∧
      u.sp = t.sp ∧ u.cfg = t.cfg ∧ stackAt u (t.sp + 1) = stackAt t (t.sp + 1) ∧ stackAt u (t.sp + 2) = stackAt t (t.sp + 2) :=
  ⟨_, { State.reset with a := 0x99, sp := 0x00, mem := fill [] 0x0101 [0x02, 0x06] },
    by decide, rfl, by decide, by decide, by decide, by decide, by decide⟩

/-- The handler changed A; SP is at its lowest, 0x03 before the BRK. -/
theorem witness_InterruptThenReturn :
    ∃ t u : State, (fatalAt 0x03).mem.wf = true ∧ exec .brk (fatalAt 0x03) = .next t ∧ u.a ≠ t.a ∧
      u.sp = t.sp ∧ u.cfg = t.cfg ∧ stackAt u (t.sp + 1) = stackAt t (t.sp + 1) ∧
      stackAt u (t.sp + 2) = stackAt t (t.sp + 2) ∧ stackAt u (t.sp + 3) = stackAt t (t.sp + 3) :=
  ⟨_, { State.reset with a := 0x99, sp := 0x00, mem := fill [] 0x0101 [0x30, 0x02, 0x06] },
    by decide, rfl, by decide, by decide, by decide, by decide, by decide, by decide⟩

theorem witness_PushesPopInReverse :
    (fatalAt 0x02).mem.wf = true ∧ ¬ (Fatal (fatalAt 0x02) ∧ (fatalAt 0x02).sp.toNat ≤ 1) ∧
    ¬ (Fatal (wrapAt 0x00) ∧ (wrapAt 0x00).sp.toNat ≤ 1) := by
  unfold Fatal; decide

end Sys2Proof.Tests
end

/-! PROOFS. The bytes that are no instruction (30_encoding.md R66): which they are, and what a step makes of one. -/

namespace Sys2Proof.Proofs

open Sys2Proof.Machine Sys2Proof.Statements

/-- A raised fault is the fault that the statements speak of, whatever raised it. -/
theorem raise_faultsAt (cause : FaultCause) (pc0 : Word) (s : State) : FaultsAt (raise cause pc0 s) cause pc0 s := by
  obtain ⟨f, hf, hrecord, hleft⟩ := raise_eq cause pc0 s
  exact ⟨f, hf, hrecord, by rw [hleft, hrecord]; rfl⟩

/-- A byte has no decoding exactly when its place in the opcode map (R65) is empty. -/
theorem decodeOpcode_eq_none_iff {b : Byte} : decodeOpcode b = none ↔ opcodeEntry b = .undef := by
  unfold decodeOpcode
  cases opcodeEntry b <;> simp

/-- Bytes whose first has no decoding are rejected, with that byte, whatever follows it. -/
theorem decode_cons_of_decodeOpcode_none {b : Byte} (rest : List Byte) (h : decodeOpcode b = none) :
    decode (b :: rest) = .error (.illegalOpcode b) := by
  simp [decode, decodeOpcode_eq_none_iff.mp h]

/-- A running machine whose byte at PC has no decoding takes the decode failure. -/
theorem step_of_decodeOpcode_none {s : State} (hrun : s.run = .running)
    (h : decodeOpcode (memRead s.mem s.pc) = none) : step s = decodeFault s := by
  simp [step, hrun, bytesAt, decode_cons_of_decodeOpcode_none _ h]

/-- Every byte, in order. -/
def allBytes : List Byte := (List.range 256).map (BitVec.ofNat 8)

theorem mem_allBytes (b : Byte) : b ∈ allBytes :=
  List.mem_map.mpr ⟨b.toNat, List.mem_range.mpr b.isLt, by simp⟩

/-- The two tables of the spec agree: the empty places of the opcode map (R65), in order, are the bytes that R66 lists. -/
theorem filter_allBytes_eq_illegalBytes : allBytes.filter (fun b => (decodeOpcode b).isNone) = illegalBytes := by decide

/-- The bytes that R66 lists are those with no decoding. -/
theorem decodeOpcode_eq_none_iff_mem (b : Byte) : decodeOpcode b = none ↔ b ∈ illegalBytes := by
  simp [← filter_allBytes_eq_illegalBytes, mem_allBytes]

/-- Settles O5: the opcode map and the list are compared over all bytes, and a step at a listed byte is the decode failure. -/
theorem illegalBytesFail : Obligations.IllegalBytesFail := by
  refine ⟨rfl, decodeOpcode_eq_none_iff_mem, fun s hrun hmem => ?_⟩
  rw [step_of_decodeOpcode_none hrun ((decodeOpcode_eq_none_iff_mem _).mpr hmem)]
  obtain ⟨f, hf, hrecord, hleft⟩ := raise_faultsAt (.decodeFailure (memRead s.mem s.pc)) s.pc s
  exact ⟨f, hf, by rw [hrecord], by rw [hleft]⟩

end Sys2Proof.Proofs

/-! PROOFS. The addressing modes (40_addressing.md): their effective addresses as numbers, which operands have one, and the values
they stand for. -/

namespace Sys2Proof.Proofs

open Sys2Proof.Machine

/-- Zero extension keeps the value. -/
@[simp] theorem toNat_zext16 (b : Byte) : (zext16 b).toNat = b.toNat :=
  BitVec.toNat_setWidth_of_le (by decide)

/-- An index added to a page-0 address wraps within the page (R85, R86). -/
theorem toNat_zext16_add (b r : Byte) : (zext16 (b + r)).toNat = (b.toNat + r.toNat) % 256 := by
  rw [toNat_zext16, BitVec.toNat_add]

/-- An index added to an absolute address wraps within 16 bits (R88, R89). -/
theorem toNat_wordOf_add_zext16 (h l r : Byte) :
    (wordOf h l + zext16 r).toNat = (256 * h.toNat + l.toNat + r.toNat) % 65536 := by
  rw [BitVec.toNat_add, toNat_wordOf, toNat_zext16]

/-- The mode of an instruction is one of its mnemonic's (R69). -/
theorem mode_mem_modes (i : Instr) : i.mode ∈ i.op.modes := by
  rw [← List.contains_iff_mem]
  cases i <;> rfl

/-- Only LDX and STX have zero page indexed by Y in their rows of R69. -/
theorem op_mem_of_zeroPageY_mem_modes {op : Op} (h : .zeroPageY ∈ op.modes) : op ∈ [.ldx, .stx] := by
  revert h
  cases op <;> decide

/-- Settles O19: the addresses are sums of bytes that wrap at 8 or 16 bits, and the instructions that have ZeroPageY are read off the
modes of each mnemonic. -/
theorem directModesAddress : Obligations.DirectModesAddress := by
  refine ⟨fun s b => ⟨?zeroPage, rfl, ?zeroPageX, rfl, ?zeroPageY, rfl⟩,
    fun s h l => ⟨?absolute, rfl, ?absoluteX, rfl, ?absoluteY, rfl⟩, fun i hmode => ?ops⟩
  case zeroPage => exact congrArg some (toNat_zext16 b)
  case zeroPageX => exact congrArg some (toNat_zext16_add b s.x)
  case zeroPageY => exact congrArg some (toNat_zext16_add b s.y)
  case absolute => exact congrArg some (toNat_wordOf h l)
  case absoluteX => exact congrArg some (toNat_wordOf_add_zext16 h l s.x)
  case absoluteY => exact congrArg some (toNat_wordOf_add_zext16 h l s.y)
  case ops => exact op_mem_of_zeroPageY_mem_modes (hmode ▸ mode_mem_modes i)

/-- The modes whose operand has no effective address (R81, R82, R83, R93). -/
def addresslessModes : List Mode := [.implicit, .accumulator, .immediate, .relative]

/-- An operand has an effective address exactly when its mode is none of those. -/
theorem exists_effectiveAddress_iff (o : Operand) (s : State) :
    (∃ ea, effectiveAddress o s = some ea) ↔ o.mode ∉ addresslessModes := by
  cases o <;> simp [effectiveAddress, Operand.mode, addresslessModes]

/-- The value of an operand that has an effective address is the byte there (R94): the two modes that R94 treats apart have none. -/
theorem operandValue_of_effectiveAddress {o : Operand} {s : State} {ea : Word} (h : effectiveAddress o s = some ea) :
    operandValue o s = some (memRead s.mem ea) := by
  cases o with
  | accumulator | immediate => cases h
  | _ => exact congrArg (Option.map (memRead s.mem)) h

/-- Settles O21: the modes it lists all have an effective address, and the value is the byte there. -/
theorem operandValues : Obligations.OperandValues := by
  refine fun s => ⟨fun _ => rfl, rfl, fun o hmode => ?_⟩
  have hlisted : ∀ m ∈ [Mode.zeroPage, .zeroPageX, .zeroPageY, .absolute, .absoluteX, .absoluteY, .indexedIndirect,
      .indirectIndexed], m ∉ addresslessModes := by decide
  obtain ⟨ea, hea⟩ := (exists_effectiveAddress_iff o s).mpr (hlisted _ hmode)
  exact ⟨ea, hea, operandValue_of_effectiveAddress hea⟩

end Sys2Proof.Proofs

/-! PROOFS. The encoding of a mnemonic, and an instruction's meaning as that of its mnemonic on its operand: the shared operation of
its family, which goes on with the operand's value or address. -/

namespace Sys2Proof.Proofs

open Sys2Proof.Machine Sys2Proof.Statements

/-- The (mode, opcode byte) pairs that the decoder gives a mnemonic, in the order of the bytes. -/
def decodedForms (op : Op) : List (Mode × Byte) :=
  allBytes.filterMap fun b => (decodeOpcode b).bind fun d => if d.1 = op then some (d.2, b) else none

theorem mem_decodedForms {op : Op} {m : Mode} {b : Byte} :
    (m, b) ∈ decodedForms op ↔ decodeOpcode b = some (op, m) := by
  simp only [decodedForms, List.mem_filterMap, mem_allBytes, true_and, Option.bind_eq_some_iff]
  constructor
  · rintro ⟨b', ⟨op', m'⟩, hdecode, hform⟩
    obtain ⟨rfl, hpair⟩ := Option.ite_none_right_eq_some.mp hform
    cases hpair
    exact hdecode
  · exact fun hdecode => ⟨b, (op, m), hdecode, if_pos rfl⟩

/-- A list in any order of the pairs that the decoder gives a mnemonic is its encoding. -/
theorem hasOpcodes_of_perm {op : Op} {forms : List (Mode × Byte)} (h : forms.Perm (decodedForms op)) : HasOpcodes op forms :=
  fun _ _ => h.mem_iff.trans mem_decodedForms

/-- The operation on the operand that each mnemonic with a resolved operand stands for (R120 to R125, R140 to R150, R170 to R173,
R189). -/
def operandMeaning : Op → Option (Operand → State → Out)
  | .lda => some loadA
  | .ldx => some loadX
  | .ldy => some loadY
  | .sta => some storeA
  | .stx => some storeX
  | .sty => some storeY
  | .adc => some addWithCarry
  | .sbc => some subtractWithBorrow
  | .and => some andA
  | .ora => some orA
  | .eor => some eorA
  | .bit => some testBits
  | .cmp => some compareA
  | .cpx => some compareX
  | .cpy => some compareY
  | .inc => some incrementByte
  | .dec => some decrementByte
  | .asl => some shiftLeft
  | .lsr => some shiftRight
  | .rol => some rotateLeft
  | .ror => some rotateRight
  | .jmp => some jump
  | _ => none

/-- Every form of such a mnemonic is that operation on the form's operand. -/
theorem exec_eq_of_operandMeaning {i : Instr} {f : Operand → State → Out} (s : State) (h : operandMeaning i.op = some f) :
    exec i s = f i.operand s := by
  cases i <;> cases h <;> rfl

/-- The modes whose operand stands for no value (R81, R93). -/
def valuelessModes : List Mode := [.implicit, .relative]

/-- An operand has a value exactly when its mode is none of those. -/
theorem exists_operandValue_iff (o : Operand) (s : State) : (∃ v, operandValue o s = some v) ↔ o.mode ∉ valuelessModes := by
  cases o <;> simp [operandValue, effectiveAddress, Operand.mode, valuelessModes]

/-- A mnemonic that goes on with its operand's value, in modes that all have one, completes with that value. -/
theorem exec_completes_with_value {i : Instr} {f : Byte → State → State} (s : State)
    (hmeaning : operandMeaning i.op = some fun o s => resolveValue o s fun v s1 => .next (f v s1))
    (hmodes : ∀ m ∈ i.op.modes, m ∉ valuelessModes) :
    ∃ v, operandValue i.operand s = some v ∧ exec i s = .next (f v (s.past i.operand)) := by
  obtain ⟨v, hv⟩ := (exists_operandValue_iff i.operand s).mpr (hmodes _ (mode_mem_modes i))
  exact ⟨v, hv, (exec_eq_of_operandMeaning s hmeaning).trans (resolveValue_of_some hv)⟩

/-- A mnemonic that goes on with its operand's address, in modes that all have one, completes with that address. -/
theorem exec_completes_with_address {i : Instr} {f : Word → State → State} (s : State)
    (hmeaning : operandMeaning i.op = some fun o s => resolveAddress o s fun ea s1 => .next (f ea s1))
    (hmodes : ∀ m ∈ i.op.modes, m ∉ addresslessModes) :
    ∃ ea, effectiveAddress i.operand s = some ea ∧ exec i s = .next (f ea (s.past i.operand)) := by
  obtain ⟨ea, hea⟩ := (exists_effectiveAddress_iff i.operand s).mpr (hmodes _ (mode_mem_modes i))
  exact ⟨ea, hea, (exec_eq_of_operandMeaning s hmeaning).trans (resolveAddress_of_some hea)⟩

end Sys2Proof.Proofs

/-! PROOFS. Loads and stores (42_load_store.md). -/

namespace Sys2Proof.Proofs

open Sys2Proof.Machine Sys2Proof.Statements

/-- Settles O26: no mode of LDA, LDX or LDY is without a value, so every form completes with it. -/
theorem loadResults : Obligations.LoadResults := by
  refine ⟨hasOpcodes_of_perm (by decide), hasOpcodes_of_perm (by decide), hasOpcodes_of_perm (by decide),
    fun i s hop => ?lda, fun i s hop => ?ldx, fun i s hop => ?ldy⟩
  case lda => exact exec_completes_with_value s (by rw [hop]; rfl) (by rw [hop]; decide)
  case ldx => exact exec_completes_with_value s (by rw [hop]; rfl) (by rw [hop]; decide)
  case ldy => exact exec_completes_with_value s (by rw [hop]; rfl) (by rw [hop]; decide)

/-- Settles O27: every mode of STA, STX and STY has an effective address, so every form completes with the byte written there. -/
theorem storeResults : Obligations.StoreResults := by
  refine ⟨hasOpcodes_of_perm (by decide), hasOpcodes_of_perm (by decide), hasOpcodes_of_perm (by decide),
    fun i s hop => ?sta, fun i s hop => ?stx, fun i s hop => ?sty⟩
  case sta => exact exec_completes_with_address s (by rw [hop]; rfl) (by rw [hop]; decide)
  case stx => exact exec_completes_with_address s (by rw [hop]; rfl) (by rw [hop]; decide)
  case sty => exact exec_completes_with_address s (by rw [hop]; rfl) (by rw [hop]; decide)

end Sys2Proof.Proofs

/-! PROOFS. Logic, compare, increment and decrement (43_arith_logic.md). -/

namespace Sys2Proof.Proofs

open Sys2Proof.Machine Sys2Proof.Statements

/-- The Z and N outputs of the ALU (R100) are those the statements name. -/
theorem withZN_eq_zn (p : Status) (v : Byte) : p.withZN v = zn p v := rfl

/-- The outputs of a comparison (R105): the unsigned order, and Z and N of the difference. -/
theorem withCompared_compareBytes (p : Status) (r m : Byte) :
    p.withCompared (compareBytes r m) = czn p (decide (m.toNat ≤ r.toNat)) (r - m) := rfl

/-- A mnemonic of `logic f`, in modes that all have a value, completes with `f` of A and that value. -/
theorem exec_completes_with_logic {i : Instr} {f : Byte → Byte → Byte} (s : State) (hmeaning : operandMeaning i.op = some (logic f))
    (hmodes : ∀ m ∈ i.op.modes, m ∉ valuelessModes) :
    ∃ m, operandValue i.operand s = some m ∧
      exec i s = .next { s with a := f s.a m, p := zn s.p (f s.a m), pc := s.pc + lengthOf i.operand } := by
  simp only [← withZN_eq_zn]
  exact exec_completes_with_value s hmeaning hmodes

/-- A mnemonic that compares a register, in modes that all have a value, completes with the comparison to that value. The model
reads the register before PC moves on, so its operation is none of those that `exec_completes_with_value` is about. -/
theorem exec_completes_with_compare {i : Instr} {r : State → Byte} (s : State)
    (hmeaning : operandMeaning i.op = some fun o s => compareWith (r s) o s)
    (hmodes : ∀ m ∈ i.op.modes, m ∉ valuelessModes) :
    ∃ m, operandValue i.operand s = some m ∧
      exec i s = .next { s with p := czn s.p (decide (m.toNat ≤ (r s).toNat)) (r s - m), pc := s.pc + lengthOf i.operand } := by
  obtain ⟨m, hm⟩ := (exists_operandValue_iff i.operand s).mpr (hmodes _ (mode_mem_modes i))
  refine ⟨m, hm, ?_⟩
  rw [← withCompared_compareBytes]
  exact (exec_eq_of_operandMeaning s hmeaning).trans (resolveValue_of_some hm)

/-- A mnemonic of `modifyByte f`, in modes that all have an address, completes with `f` of the byte there written back. -/
theorem exec_completes_with_modify {i : Instr} {f : Byte → Byte} (s : State) (hmeaning : operandMeaning i.op = some (modifyByte f))
    (hmodes : ∀ m ∈ i.op.modes, m ∉ addresslessModes) :
    ∃ ea, effectiveAddress i.operand s = some ea ∧
      exec i s = .next { s with mem := memWrite s.mem ea (f (memRead s.mem ea)), p := zn s.p (f (memRead s.mem ea)),
                                pc := s.pc + lengthOf i.operand } := by
  simp only [← withZN_eq_zn]
  exact exec_completes_with_address s hmeaning hmodes

/-- X written past an instruction of one byte. -/
theorem putX_past_implicit (v : Byte) (s : State) :
    putX v (s.past .implicit) = .next { s with x := v, p := zn s.p v, pc := s.pc + 1 } := rfl

/-- Y written past an instruction of one byte. -/
theorem putY_past_implicit (v : Byte) (s : State) :
    putY v (s.past .implicit) = .next { s with y := v, p := zn s.p v, pc := s.pc + 1 } := rfl

/-- Settles O29: no mode of AND, ORA or EOR is without a value, so every form completes with the bitwise operation on it. -/
theorem logicResults : Obligations.LogicResults := by
  refine ⟨hasOpcodes_of_perm (by decide), hasOpcodes_of_perm (by decide), hasOpcodes_of_perm (by decide),
    fun i s hop => ?and, fun i s hop => ?ora, fun i s hop => ?eor⟩
  case and => exact exec_completes_with_logic s (by rw [hop]; rfl) (by rw [hop]; decide)
  case ora => exact exec_completes_with_logic s (by rw [hop]; rfl) (by rw [hop]; decide)
  case eor => exact exec_completes_with_logic s (by rw [hop]; rfl) (by rw [hop]; decide)

/-- Settles O31: no mode of CMP, CPX or CPY is without a value, so every form completes with the register compared to it. -/
theorem compareResults : Obligations.CompareResults := by
  refine ⟨hasOpcodes_of_perm (by decide), hasOpcodes_of_perm (by decide), hasOpcodes_of_perm (by decide),
    fun i s hop => ?cmp, fun i s hop => ?cpx, fun i s hop => ?cpy⟩
  case cmp => exact exec_completes_with_compare (r := State.a) s (by rw [hop]; rfl) (by rw [hop]; decide)
  case cpx => exact exec_completes_with_compare (r := State.x) s (by rw [hop]; rfl) (by rw [hop]; decide)
  case cpy => exact exec_completes_with_compare (r := State.y) s (by rw [hop]; rfl) (by rw [hop]; decide)

/-- Settles O32: every mode of INC and DEC has an effective address, so every form completes with the byte there changed by one. -/
theorem memoryIncDecResults : Obligations.MemoryIncDecResults := by
  refine ⟨hasOpcodes_of_perm (by decide), hasOpcodes_of_perm (by decide), fun i s hop => ?inc, fun i s hop => ?dec⟩
  case inc => exact exec_completes_with_modify (f := inc) s (by rw [hop]; rfl) (by rw [hop]; decide)
  case dec => exact exec_completes_with_modify (f := dec) s (by rw [hop]; rfl) (by rw [hop]; decide)

/-- Settles O33: each of the four is its register written one byte past the opcode. -/
theorem registerIncDecResults : Obligations.RegisterIncDecResults :=
  ⟨hasOpcodes_of_perm (by decide), hasOpcodes_of_perm (by decide), hasOpcodes_of_perm (by decide), hasOpcodes_of_perm (by decide),
    fun s => ⟨putX_past_implicit (inc s.x) s, putY_past_implicit (inc s.y) s, putX_past_implicit (dec s.x) s,
      putY_past_implicit (dec s.y) s⟩⟩

end Sys2Proof.Proofs

/-! PROOFS. Shifts and rotates (44_shift_rotate.md). -/

namespace Sys2Proof.Proofs

open Sys2Proof.Machine Sys2Proof.Statements

/-- The flags of a shift or rotate (R170) are C as shifted out, and Z and N of the result. -/
theorem withShifted_eq_czn (p : Status) (o : Shifted) : p.withShifted o = czn p o.c o.r := rfl

/-- A shift or rotate of the accumulator completes from every state, with A replaced. -/
theorem shiftWith_accumulator (f : Byte → Bool → Shifted) (s : State) :
    shiftWith f .accumulator s =
      .next { s with a := (f s.a s.p.c).r, p := czn s.p (f s.a s.p.c).c (f s.a s.p.c).r, pc := s.pc + 1 } := by
  rw [← withShifted_eq_czn]
  exact resolveLocation_of_some (o := .accumulator) (l := .regA) rfl

/-- The location of an operand that has an effective address is the byte there (R95): the accumulator, whose location is A, has
no address. -/
theorem operandLoc_of_effectiveAddress {o : Operand} {s : State} {ea : Word} (h : effectiveAddress o s = some ea) :
    operandLoc o s = some (.mem ea) := by
  cases o with
  | accumulator => cases h
  | _ => exact congrArg (Option.map Loc.mem) h

/-- A mnemonic of `shiftWith f`, on an operand that has an effective address, completes with `f` of the byte there and the old C,
written back. -/
theorem exec_completes_with_shift {i : Instr} {f : Byte → Bool → Shifted} {s : State} {ea : Word}
    (hmeaning : operandMeaning i.op = some (shiftWith f)) (hea : effectiveAddress i.operand s = some ea) :
    exec i s = .next { s with mem := memWrite s.mem ea (f (memRead s.mem ea) s.p.c).r,
                              p := czn s.p (f (memRead s.mem ea) s.p.c).c (f (memRead s.mem ea) s.p.c).r,
                              pc := s.pc + lengthOf i.operand } := by
  rw [← withShifted_eq_czn]
  exact (exec_eq_of_operandMeaning s hmeaning).trans (resolveLocation_of_some (operandLoc_of_effectiveAddress hea))

/-- Every mode of ASL, LSR, ROL and ROR but the accumulator has an effective address. -/
theorem mode_not_mem_addresslessModes_of_shift {i : Instr} (hop : i.op ∈ [.asl, .lsr, .rol, .ror])
    (hmode : i.mode ≠ .accumulator) : i.mode ∉ addresslessModes := by
  have hmodes : ∀ op ∈ [Op.asl, .lsr, .rol, .ror], ∀ m ∈ op.modes, m ≠ .accumulator → m ∉ addresslessModes := by decide
  exact hmodes _ hop _ (mode_mem_modes i) hmode

/-- Settles O34: each of the four is `shiftWith` of its ALU function, which replaces A or the byte at the effective address. -/
theorem shiftResults : Obligations.ShiftResults := by
  refine ⟨hasOpcodes_of_perm (by decide), hasOpcodes_of_perm (by decide), hasOpcodes_of_perm (by decide),
    hasOpcodes_of_perm (by decide), fun s => ?accumulator, fun i s hop hmode => ?memory⟩
  case accumulator =>
    exact ⟨shiftWith_accumulator (fun v _ => asl v) s, shiftWith_accumulator (fun v _ => lsr v) s,
      shiftWith_accumulator rol s, shiftWith_accumulator ror s⟩
  case memory =>
    obtain ⟨ea, hea⟩ := (exists_effectiveAddress_iff i.operand s).mpr (mode_not_mem_addresslessModes_of_shift hop hmode)
    refine ⟨ea, hea, fun hasl => ?asl, fun hlsr => ?lsr, fun hrol => ?rol, fun hror => ?ror⟩
    case asl => exact exec_completes_with_shift (f := fun v _ => asl v) (by rw [hasl]; rfl) hea
    case lsr => exact exec_completes_with_shift (f := fun v _ => lsr v) (by rw [hlsr]; rfl) hea
    case rol => exact exec_completes_with_shift (f := rol) (by rw [hrol]; rfl) hea
    case ror => exact exec_completes_with_shift (f := ror) (by rw [hror]; rfl) hea

end Sys2Proof.Proofs

/-! PROOFS. Branches (45_control.md R180 to R188). -/

namespace Sys2Proof.Proofs

open Sys2Proof.Machine Sys2Proof.Statements

/-- The signed offset of a branch by its sign bit: a negative byte extends with 0xFF above it. -/
theorem sext16_eq_ite (b : Byte) : sext16 b = if b.getLsbD 7 then b.setWidth 16 + 0xFF00 else b.setWidth 16 := by
  rw [← show b.msb = b.getLsbD 7 from BitVec.msb_eq_getLsbD_last b]
  cases hsign : b.msb with
  | false => exact BitVec.signExtend_eq_setWidth_of_msb_false hsign
  | true =>
    have hsext : (sext16 b).toNat = (b.setWidth 16).toNat + if b.msb then 2 ^ 16 - 2 ^ 8 else 0 := BitVec.toNat_signExtend b
    rw [hsign, if_pos rfl] at hsext
    rw [if_pos rfl]
    bv_omega

/-- A branch completes from every state, with PC its only change: past the two bytes, and on to the target if it is taken. -/
theorem branchIf_eq_next (taken : Bool) (off : Byte) (s : State) :
    branchIf taken off s = .next { s with pc := if taken then branchTarget off (s.pc + 2) else s.pc + 2 } := rfl

/-- Settles O35: each of the eight is `branchIf` on its flag, and the target's signed offset is split by its sign bit. -/
theorem branchResults : Obligations.BranchResults := by
  refine ⟨hasOpcodes_of_perm (by decide), hasOpcodes_of_perm (by decide), hasOpcodes_of_perm (by decide),
    hasOpcodes_of_perm (by decide), hasOpcodes_of_perm (by decide), hasOpcodes_of_perm (by decide),
    hasOpcodes_of_perm (by decide), hasOpcodes_of_perm (by decide), fun off s => ?_⟩
  rw [← sext16_eq_ite]
  exact ⟨branchIf_eq_next (!s.p.c) off s, branchIf_eq_next s.p.c off s, branchIf_eq_next s.p.z off s,
    branchIf_eq_next (!s.p.z) off s, branchIf_eq_next s.p.n off s, branchIf_eq_next (!s.p.n) off s,
    branchIf_eq_next (!s.p.v) off s, branchIf_eq_next s.p.v off s⟩

end Sys2Proof.Proofs

/-! PROOFS. Transfers (47_transfer.md). -/

namespace Sys2Proof.Proofs

open Sys2Proof.Machine Sys2Proof.Statements

/-- A written past an instruction of one byte. -/
theorem putA_past_implicit (v : Byte) (s : State) :
    putA v (s.past .implicit) = .next { s with a := v, p := zn s.p v, pc := s.pc + 1 } := rfl

/-- TXS writes SP past its one byte, and no flag (R215): its operation is none of the writes that set Z and N. -/
theorem execTxs_eq_next (s : State) : execTxs s = .next { s with sp := s.x, pc := s.pc + 1 } := rfl

/-- Settles O45: the first five each write their source to a register one byte past the opcode, with Z and N of it; TXS writes only
SP. -/
theorem transferResults : Obligations.TransferResults :=
  ⟨hasOpcodes_of_perm (by decide), hasOpcodes_of_perm (by decide), hasOpcodes_of_perm (by decide), hasOpcodes_of_perm (by decide),
    hasOpcodes_of_perm (by decide), hasOpcodes_of_perm (by decide), fun s => ⟨putX_past_implicit s.a s, putY_past_implicit s.a s,
      putA_past_implicit s.x s, putA_past_implicit s.y s, putX_past_implicit s.sp s, execTxs_eq_next s⟩⟩

end Sys2Proof.Proofs

/-! PROOFS. Flag set and clear, no operation (48_flags_nop.md). -/

namespace Sys2Proof.Proofs

open Sys2Proof.Machine Sys2Proof.Statements

/-- P written past an instruction of one byte. -/
theorem putP_past_implicit (p : Status) (s : State) :
    putP p (s.past .implicit) = .next { s with p := p, pc := s.pc + 1 } := rfl

/-- NOP only moves PC past its one byte (R227). -/
theorem execNop_eq_next (s : State) : execNop s = .next { s with pc := s.pc + 1 } := rfl

/-- Settles O46: the first seven each write P, with their one flag changed, one byte past the opcode; NOP writes nothing. -/
theorem flagInstructionResults : Obligations.FlagInstructionResults := by
  refine ⟨hasOpcodes_of_perm (by decide), hasOpcodes_of_perm (by decide), hasOpcodes_of_perm (by decide),
    hasOpcodes_of_perm (by decide), hasOpcodes_of_perm (by decide), hasOpcodes_of_perm (by decide),
    hasOpcodes_of_perm (by decide), hasOpcodes_of_perm (by decide), fun s => ⟨?clc, ?sec, ?cli, ?sei, ?cld, ?sed, ?clv, ?nop⟩⟩
  case clc => exact putP_past_implicit { s.p with c := false } s
  case sec => exact putP_past_implicit { s.p with c := true } s
  case cli => exact putP_past_implicit { s.p with i := false } s
  case sei => exact putP_past_implicit { s.p with i := true } s
  case cld => exact putP_past_implicit { s.p with d := false } s
  case sed => exact putP_past_implicit { s.p with d := true } s
  case clv => exact putP_past_implicit { s.p with v := false } s
  case nop => exact execNop_eq_next s

end Sys2Proof.Proofs

/-! PROOFS. The decoder and the encoder (30_encoding.md): the opcode map (R65) and the table by mnemonic (R69) are inverse. -/

namespace Sys2Proof.Proofs

open Sys2Proof.Machine

/-- The instruction that an entry of the opcode map makes of operand bytes, the low byte of a word first (R60, R62). -/
def makeFrom : Entry → List Byte → Option Instr
  | .f1 i, [] => some i
  | .f2 make, [v] => some (make v)
  | .f3 make, [l, h] => some (make (wordOf h l))
  | _, _ => none

/-- The decoder takes the operand bytes of which the entry of the first byte makes an instruction, and leaves the rest. -/
theorem decode_cons_eq_ok_iff {b : Byte} {bs rest : List Byte} {i : Instr} :
    decode (b :: bs) = .ok (i, rest) ↔ ∃ ops, makeFrom (opcodeEntry b) ops = some i ∧ bs = ops ++ rest := by
  constructor
  · intro h
    simp only [decode] at h
    split at h <;> cases h
    case h_2 hentry => exact ⟨[], by rw [hentry]; rfl, rfl⟩
    case h_3 v hentry => exact ⟨[v], by rw [hentry]; rfl, rfl⟩
    case h_5 l h hentry => exact ⟨[l, h], by rw [hentry]; rfl, rfl⟩
  · rintro ⟨ops, hmake, rfl⟩
    unfold makeFrom at hmake
    split at hmake <;> cases hmake
    all_goals simp [decode, *]

/-- The opcode map has, at the byte that the table gives an instruction, an entry that makes it of its operand bytes. -/
theorem makeFrom_opcode (i : Instr) : makeFrom (opcodeEntry (opcode i)) (operandBytes i.operand) = some i := by
  cases i <;> (dsimp only [opcode]; show some _ = some _; simp only [wordOf_hi_lo])

/-- The table gives what an entry of the opcode map can make the entry's byte and the operand bytes that it is made of. -/
def EntryEncodes (b : Byte) (e : Entry) : Prop :=
  ∀ (v : Byte) (w : Word), match e with
    | .undef => True
    | .f1 i => encode i = [b]
    | .f2 make => encode (make v) = [b, v]
    | .f3 make => encode (make w) = [b, lo w, hi w]

/-- The two tables agree at every byte. -/
theorem entryEncodes_opcodeEntry (b : Byte) : EntryEncodes b (opcodeEntry b) := by
  obtain ⟨n, hn, rfl⟩ : ∃ n < 256, b = BitVec.ofNat 8 n := ⟨b.toNat, b.isLt, by simp⟩
  interval_cases n <;> exact fun _ _ => by trivial

/-- So what the opcode map makes of operand bytes is encoded as the byte of its entry and those operand bytes. -/
theorem encode_of_makeFrom {b : Byte} {ops : List Byte} {i : Instr} (h : makeFrom (opcodeEntry b) ops = some i) :
    encode i = b :: ops := by
  have hencodes := entryEncodes_opcodeEntry b
  generalize opcodeEntry b = e at h hencodes
  unfold makeFrom at h
  split at h <;> cases h
  case h_1 => exact hencodes 0 0
  case h_2 v => exact hencodes v 0
  case h_3 l h => simpa using hencodes 0 (wordOf h l)

/-- Settles O1: the table places each instruction at an entry of the opcode map that makes it, and an operand word is made of its two
bytes again. -/
theorem decodeOfEncode : Obligations.DecodeOfEncode :=
  fun i _ => decode_cons_eq_ok_iff.mpr ⟨operandBytes i.operand, makeFrom_opcode i, rfl⟩

/-- Settles O2: the decoder makes the instruction of the entry at the first byte, which the table encodes as that byte and the operand
bytes taken. -/
theorem encodeOfDecode : Obligations.EncodeOfDecode := by
  intro bs i rest hdecode
  match bs with
  | [] => cases hdecode
  | b :: bs =>
    obtain ⟨ops, hmake, rfl⟩ := decode_cons_eq_ok_iff.mp hdecode
    rw [encode_of_makeFrom hmake, List.cons_append]

/-- Settles O3: the bytes are the encodings of the instructions they stand for. -/
theorem writtenBytesDecode : Obligations.WrittenBytesDecode :=
  ⟨decodeOfEncode (.ldaImm 0x11) [], decodeOfEncode (.stxZpY 0xFF) [], decodeOfEncode (.adcAbs 0x1234) [],
    decodeOfEncode .lsrAcc [], decodeOfEncode (.jmpInd 0x1234) [], decodeOfEncode (.bne 0xF8) [], decodeOfEncode .php [],
    decodeOfEncode .tsx [], decodeOfEncode .clv [], decodeOfEncode .nop [0x02]⟩

/-- An operand has as many bytes as its mode takes (R61). -/
theorem length_operandBytes (o : Operand) : (operandBytes o).length = o.mode.operandCount := by
  cases o <;> rfl

/-- PC moves past the opcode byte and the operand bytes (R23, R61). -/
theorem lengthOf_eq (o : Operand) : lengthOf o = BitVec.ofNat 16 (o.mode.operandCount + 1) := by
  cases o <;> rfl

theorem length_encode (i : Instr) : (encode i).length = i.mode.operandCount + 1 := by
  rw [encode, List.length_cons, length_operandBytes, Instr.mode]

/-- Settles O4: both lengths are the operand bytes of the mode and the opcode byte. -/
theorem lengthByMode : Obligations.LengthByMode := by
  have hnone : ∀ m ∈ [Mode.implicit, .accumulator], m.operandCount + 1 = 1 := by decide
  have hbyte : ∀ m ∈ [Mode.immediate, .zeroPage, .zeroPageX, .zeroPageY, .relative, .indexedIndirect, .indirectIndexed],
      m.operandCount + 1 = 2 := by decide
  have hword : ∀ m ∈ [Mode.absolute, .absoluteX, .absoluteY, .indirect], m.operandCount + 1 = 3 := by decide
  have hlengthOf : ∀ m : Mode, (BitVec.ofNat 16 (m.operandCount + 1)).toNat = m.operandCount + 1 := by
    intro m
    cases m <;> rfl
  intro i
  rw [length_encode, lengthOf_eq, hlengthOf]
  exact ⟨rfl, hnone i.mode, hbyte i.mode, hword i.mode⟩

end Sys2Proof.Proofs

/-! PROOFS. Memory (20_memory.md): a list in canonical form is one function of the address, written one way. -/

namespace Sys2Proof.Proofs

open Sys2Proof.Machine

/-- Cells in canonical form from a bound on list nothing below it. -/
theorem readCells_of_lt {low a : Nat} {m : List Host.Cell} (hwf : cellsWf low m = true) (h : a < low) :
    readCells m a = unlistedByte := by
  induction m generalizing low with
  | nil => rfl
  | cons cell rest ih =>
    obtain ⟨k, v⟩ := cell
    obtain ⟨hlow, -, -, hrest⟩ := cellsWf_cons.mp hwf
    rw [readCells, if_neg (by omega)]
    exact ih hrest (by omega)

/-- A cell put before cells that do not list its address, unless it reads as unlisted: what `writeCells` does at each of its ends. -/
theorem readCells_ite_cons {m : List Host.Cell} {a : Nat} (v : Byte) (h : readCells m a = unlistedByte) (b : Nat) :
    readCells (if v = unlistedByte then m else (a, v) :: m) b = if b = a then v else readCells m b := by
  by_cases hv : v = unlistedByte
  · by_cases hb : b = a <;> simp [hv, hb, h]
  · simp [hv, readCells, eq_comm]

/-- A written cell reads as what was written there, and every other as before. -/
theorem readCells_writeCells {low : Nat} {m : List Host.Cell} (hwf : cellsWf low m = true) (a b : Nat) (v : Byte) :
    readCells (writeCells m a v) b = if b = a then v else readCells m b := by
  induction m generalizing low with
  | nil => exact readCells_ite_cons v rfl b
  | cons cell rest ih =>
    obtain ⟨k, w⟩ := cell
    obtain ⟨hk, hkb, hw, hrest⟩ := cellsWf_cons.mp hwf
    rcases lt_trichotomy a k with hlt | rfl | hgt
    · have hunlisted : readCells ((k, w) :: rest) a = unlistedByte :=
        readCells_of_lt (cellsWf_cons.mpr ⟨le_refl k, hkb, hw, hrest⟩) hlt
      rw [writeCells, if_pos hlt]
      exact readCells_ite_cons v hunlisted b
    · rw [writeCells, if_neg (lt_irrefl a), if_pos rfl,
        readCells_ite_cons v (readCells_of_lt hrest (Nat.lt_succ_self a)) b, readCells]
      rcases eq_or_ne b a with rfl | hb
      · simp
      · simp [hb, hb.symm]
    · rw [writeCells, if_neg (by omega), if_neg (by omega), readCells, readCells, ih hrest]
      rcases eq_or_ne b a with rfl | hb
      · simp [show k ≠ b by omega]
      · simp [hb]

/-- The first cell listed is read otherwise in cells that begin above it. -/
theorem readCells_head_ne {k : Nat} {v : Byte} {rest m : List Host.Cell} (hv : v ≠ unlistedByte)
    (hwf : cellsWf (k + 1) m = true) : readCells ((k, v) :: rest) k ≠ readCells m k := by
  rw [readCells_of_lt hwf (Nat.lt_succ_self k), readCells, if_pos rfl]
  exact hv

/-- Lists in canonical form that read the same at every address are the same: of two unequal first addresses, the lower one is
listed in one of them only. -/
theorem eq_of_readCells_eq {low : Nat} {m m' : List Host.Cell} (hwf : cellsWf low m = true) (hwf' : cellsWf low m' = true)
    (hread : ∀ a < 65536, readCells m a = readCells m' a) : m = m' := by
  induction m generalizing low m' with
  | nil => cases m' with
    | nil => rfl
    | cons cell' rest' =>
      obtain ⟨-, hk', hv', -⟩ := cellsWf_cons.mp hwf'
      exact absurd (hread _ hk').symm (readCells_head_ne hv' rfl)
  | cons cell rest ih =>
    obtain ⟨k, v⟩ := cell
    obtain ⟨-, hk, hv, hrest⟩ := cellsWf_cons.mp hwf
    cases m' with
    | nil => exact absurd (hread k hk) (readCells_head_ne hv rfl)
    | cons cell' rest' =>
      obtain ⟨k', v'⟩ := cell'
      obtain ⟨-, hk', hv', hrest'⟩ := cellsWf_cons.mp hwf'
      rcases lt_trichotomy k k' with hlt | rfl | hgt
      · exact absurd (hread k hk) (readCells_head_ne hv (cellsWf_cons.mpr ⟨hlt, hk', hv', hrest'⟩))
      · obtain rfl : v = v' := by simpa [readCells] using hread k hk
        have htail : ∀ a < 65536, readCells rest a = readCells rest' a := by
          intro a ha
          by_cases hak : k = a
          · have hlt : a < k + 1 := by omega
            rw [readCells_of_lt hrest hlt, readCells_of_lt hrest' hlt]
          · simpa [readCells, hak] using hread a ha
        rw [ih hrest hrest' htail]
      · exact absurd (hread k' hk').symm (readCells_head_ne hv' (cellsWf_cons.mpr ⟨hgt, hk, hv, hrest⟩))

/-- Reading a byte after a write: what was written at that address, and every other byte as before. -/
theorem memRead_memWrite {m : Memory} (hwf : m.wf = true) (a b : Word) (v : Byte) :
    memRead (memWrite m a v) b = if b = a then v else memRead m b := by
  simp only [memRead, memWrite, readCells_writeCells hwf, BitVec.toNat_inj]

/-- Settles O15: a word names one cell, which the write sets. -/
theorem writeChangesOneByte : Obligations.WriteChangesOneByte := fun _ a b v hwf => memRead_memWrite hwf a b v

/-- Settles O16: every address of the space is a word, and so all cells read the same. -/
theorem equalReadsEqualMemory : Obligations.EqualReadsEqualMemory := by
  intro m m' hwf hwf' hread
  refine eq_of_readCells_eq hwf hwf' fun a ha => ?_
  simpa [memRead, BitVec.toNat_ofNat, Nat.mod_eq_of_lt ha] using hread (BitVec.ofNat 16 a)

end Sys2Proof.Proofs

/-! PROOFS. Words of memory and the pointers of the indirect modes (20_memory.md R42, R43; 40_addressing.md R90 to R92). -/

namespace Sys2Proof.Proofs

open Sys2Proof.Machine

/-- The address after one in page 0, but the last, is in page 0. -/
theorem zext16_add_one {p : Byte} (h : p ≠ 0xFF) : zext16 (p + 1) = zext16 p + 1 := by
  unfold zext16
  bv_omega

/-- Settles O17: the value of a word is that of its two bytes (R8), and the address after a pointer in page 0 stays in 16 bits. -/
theorem littleEndianWords : Obligations.LittleEndianWords := by
  refine fun m => ⟨fun a => ?word, rfl, fun p hp => ?pointer, rfl⟩
  case word => rw [memReadWord, toNat_wordOf, Nat.add_comm]
  case pointer => rw [zpReadWord, zext16_add_one hp]; rfl

/-- The high byte of one word and the low byte of another, as masks cut them out. -/
theorem wordOf_hi_lo_eq_or (w w' : Word) : wordOf (hi w) (lo w') = (w &&& 0xFF00) ||| (w' &&& 0x00FF) := by
  have hmaskHigh : ∀ k < 16, (0xFF00 : Word).getLsbD k = decide (8 ≤ k) := by decide
  have hmaskLow : ∀ k < 16, (0x00FF : Word).getLsbD k = decide (k < 8) := by decide
  refine BitVec.eq_of_getLsbD_eq fun k hk => ?_
  rw [BitVec.getLsbD_or, BitVec.getLsbD_and, BitVec.getLsbD_and, hmaskHigh k hk, hmaskLow k hk, wordOf, hi, lo,
    BitVec.getLsbD_append, BitVec.getLsbD_extractLsb', BitVec.getLsbD_extractLsb']
  by_cases hlow : k < 8
  · simp [hlow]
  · simp [hlow, show k - 8 < 8 by omega, show 8 ≤ k by omega]

/-- The low byte of the next word. -/
theorem lo_add_one (w : Word) : lo w + 1 = lo (w + 1) := by
  refine BitVec.eq_of_toNat_eq ?_
  simp [lo]

/-- Only JMP has Indirect in its row of R69. -/
theorem op_eq_jmp_of_indirect_mem_modes {op : Op} (h : .indirect ∈ op.modes) : op = .jmp := by
  revert h
  cases op <;> decide

/-- Settles O20: the pointer reads are those of the rules, the page of a pointer being its high byte. -/
theorem indirectModesAddress : Obligations.IndirectModesAddress := by
  refine ⟨fun s ptr hwrap => ?plain, fun s ptr hwrap => ?page, fun _ _ => rfl, fun _ _ => rfl, fun i hmode => ?ops⟩
  case plain => rw [effectiveAddress, readPointer, hwrap]; rfl
  case page => rw [effectiveAddress, readPointer, hwrap, lo_add_one, wordOf_hi_lo_eq_or]; rfl
  case ops => exact op_eq_jmp_of_indirect_mem_modes (hmode ▸ mode_mem_modes i)

end Sys2Proof.Proofs

/-! PROOFS. The adder, the subtractor and the comparison as integers (41_alu.md R102, R103, R105). -/

namespace Sys2Proof.Proofs

open Sys2Proof.Machine

/-- The sum of the two bytes and the carry, of which the adder gives the low eight bits. -/
@[simp] theorem toNat_addC_r (a b : Byte) (cin : Bool) :
    (addC a b cin).r.toNat = (a.toNat + b.toNat + cin.toNat) % 256 := BitVec.toNat_ofNat _ 8

/-- Bit 7 alone is the sign. -/
theorem and_0x80_bne_zero (x : Byte) : (x &&& 0x80 != 0) = x.msb := by
  have hbit : x &&& 0x80 = if x.getLsbD 7 then 0x80 else 0 := BitVec.and_twoPow x 7
  rw [hbit, show x.msb = x.getLsbD 7 from BitVec.msb_eq_getLsbD_last x]
  cases x.getLsbD 7 <;> rfl

/-- The overflow output is set when the operands have one sign and the result has the other. -/
theorem addC_v_eq (a b : Byte) (cin : Bool) :
    (addC a b cin).v = ((a.msb ^^ (addC a b cin).r.msb) && (b.msb ^^ (addC a b cin).r.msb)) := by
  rw [← BitVec.msb_xor, ← BitVec.msb_xor, ← BitVec.msb_and, ← and_0x80_bne_zero]
  rfl

/-- The signed value of a byte. -/
theorem toInt_byte (x : Byte) : x.toInt = if 128 ≤ x.toNat then (x.toNat : Int) - 256 else x.toNat := by
  rw [BitVec.toInt_eq_toNat_cond]
  split <;> split <;> omega

/-- V of the adder: the sum of the signed values is no signed byte. -/
theorem addC_v_iff (a b : Byte) (cin : Bool) :
    (addC a b cin).v = true ↔
      a.toInt + b.toInt + (cin.toNat : Int) < -128 ∨ 127 < a.toInt + b.toInt + (cin.toNat : Int) := by
  have hmsb : ∀ x : Byte, x.msb = decide (128 ≤ x.toNat) := BitVec.msb_eq_decide
  have ha := a.isLt
  have hb := b.isLt
  have hcin := cin.toNat_le
  rw [addC_v_eq, hmsb, hmsb, hmsb, toNat_addC_r, toInt_byte, toInt_byte]
  by_cases hsa : 128 ≤ a.toNat <;> by_cases hsb : 128 ≤ b.toNat <;> simp [hsa, hsb] <;> omega

/-- The complement of a byte, as a natural number and as a signed one. -/
theorem toNat_xor_0xFF (b : Byte) : (b ^^^ 0xFF).toNat = 255 - b.toNat := by
  rw [show b ^^^ 0xFF = ~~~b from BitVec.xor_allOnes]
  exact BitVec.toNat_not

theorem toInt_xor_0xFF (b : Byte) : (b ^^^ 0xFF).toInt = -b.toInt - 1 := by
  have hb := b.isLt
  rw [toInt_byte, toInt_byte, toNat_xor_0xFF]
  split <;> split <;> omega

/-- C of the subtractor: no borrow. -/
theorem subC_c_iff (a b : Byte) (cin : Bool) : (subC a b cin).c = true ↔ b.toNat + 1 ≤ a.toNat + cin.toNat := by
  have hb := b.isLt
  rw [show (subC a b cin).c = decide (256 ≤ a.toNat + (b ^^^ 0xFF).toNat + cin.toNat) from rfl, decide_eq_true_iff,
    toNat_xor_0xFF]
  omega

/-- Settles O23: the subtractor is the adder on the complement, which is 255 less the byte, and -1 less it as a signed byte. -/
theorem addSubtractArithmetic : Obligations.AddSubtractArithmetic := by
  intro a b cin
  refine ⟨toNat_addC_r a b cin, decide_eq_true_iff, addC_v_iff a b cin, ?difference, subC_c_iff a b cin, ?overflow⟩
  case difference =>
    have hb := b.isLt
    rw [subC, toNat_addC_r, toNat_xor_0xFF]
    omega
  case overflow =>
    rw [subC, addC_v_iff, toInt_xor_0xFF]
    omega

/-- Without a borrow the subtractor gives the difference. -/
theorem subC_true_r (r m : Byte) : (subC r m true).r = r - m := by
  have hm := m.isLt
  refine BitVec.eq_of_toNat_eq ?_
  rw [subC, toNat_addC_r, toNat_xor_0xFF, BitVec.toNat_sub, Bool.toNat_true]
  omega

/-- And its carry is the unsigned order. -/
theorem subC_true_c (r m : Byte) : (subC r m true).c = decide (m.toNat ≤ r.toNat) := by
  rw [Bool.eq_iff_iff, subC_c_iff, decide_eq_true_iff, Bool.toNat_true]
  omega

/-- Settles O24: the subtractor without a borrow gives the difference and the order that a comparison takes its flags from. -/
theorem compareIsSubtract : Obligations.CompareIsSubtract := by
  intro r m
  rw [subC_true_c, subC_true_r]
  rfl

end Sys2Proof.Proofs

/-! PROOFS. Addition, subtraction and the bit test over the operand forms (43_arith_logic.md R140, R141, R145), and jumps
(45_control.md R189). -/

namespace Sys2Proof.Proofs

open Sys2Proof.Machine Sys2Proof.Statements

/-- Settles O28: no mode of ADC or SBC is without a value, so every form completes with the sum or difference with it. -/
theorem addSubtractResults : Obligations.AddSubtractResults := by
  refine ⟨hasOpcodes_of_perm (by decide), hasOpcodes_of_perm (by decide), fun i s hop => ?adc, fun i s hop => ?sbc⟩
  case adc => exact exec_completes_with_value s (by rw [hop]; rfl) (by rw [hop]; decide)
  case sbc => exact exec_completes_with_value s (by rw [hop]; rfl) (by rw [hop]; decide)

/-- Settles O30: both modes of BIT have a value, so both forms complete with the flags of the test against it. -/
theorem bitResult : Obligations.BitResult := by
  refine ⟨hasOpcodes_of_perm (by decide), fun i s hop => ?_⟩
  exact exec_completes_with_value s (by rw [hop]; rfl) (by rw [hop]; decide)

/-- A jump over an operand with an effective address completes with PC its only change. -/
theorem jump_of_some {o : Operand} {s : State} {ea : Word} (h : effectiveAddress o s = some ea) :
    jump o s = .next { s with pc := ea } :=
  (resolveAddress_of_some h : resolveAddress o s (fun ea s1 => .next (s1.setPc ea)) = _)

/-- Settles O37: both modes of JMP have an effective address, which PC becomes. -/
theorem jumpResult : Obligations.JumpResult :=
  ⟨hasOpcodes_of_perm (by decide), fun w s => ⟨jump_of_some (o := .absolute w) rfl, readPointer s.cfg s.mem w, rfl,
    jump_of_some (o := .indirect w) rfl⟩⟩

end Sys2Proof.Proofs

/-! PROOFS. The offset byte of a branch (30_encoding.md R70; 40_addressing.md R93). -/

namespace Sys2Proof.Proofs

open Sys2Proof.Machine

/-- An offset is given exactly when it is the distance, as a signed byte. -/
theorem branchOffset_eq_some_iff {pc target : Word} {off : Byte} :
    branchOffset pc target = some off ↔ (target - (pc + 2)).toInt = off.toInt := by
  unfold branchOffset
  constructor
  · intro h
    obtain ⟨hrange, hoff⟩ := Option.ite_none_right_eq_some.mp h
    rw [← Option.some.inj hoff, BitVec.toInt_ofInt_eq_self (by decide) hrange.1 (by omega)]
  · intro h
    have hle := off.toInt_le
    have hge := off.le_toInt
    rw [h, if_pos (by omega), BitVec.ofInt_toInt]

/-- The distance of a target is the signed offset. -/
theorem branchTarget_eq_iff {after target : Word} {off : Byte} :
    branchTarget off after = target ↔ (target - after).toInt = off.toInt := by
  rw [← show (sext16 off).toInt = off.toInt from BitVec.toInt_signExtend_of_le (by decide), BitVec.toInt_inj,
    sub_eq_iff_eq_add', branchTarget, eq_comm]

/-- Settles O36: both sides say that the offset, as a signed byte, is the distance of the target from the address after the branch. -/
theorem branchOffsetIsInverse : Obligations.BranchOffsetIsInverse :=
  ⟨fun _ _ _ h => branchTarget_eq_iff.mpr (branchOffset_eq_some_iff.mp h),
    fun _ _ => branchOffset_eq_some_iff.mpr (branchTarget_eq_iff.mp rfl)⟩

end Sys2Proof.Proofs

/-! PROOFS. The stack unit (20_memory.md R49 to R52) and the byte form of P (10_state.md R26). -/

namespace Sys2Proof.Proofs

open Sys2Proof.Machine Sys2Proof.Statements

/-- The address of a stack byte as a number: the page and the index in it. -/
theorem toNat_stackAddr (cfg : Config) (sp : Byte) : (stackAddr cfg sp).toNat = cfg.stackBase.toNat + sp.toNat := by
  have hbase : cfg.stackBase.toNat = 256 * cfg.stackPage.toNat := toNat_wordOf cfg.stackPage 0x00
  have hpage := cfg.stackPage.isLt
  have hsp := sp.isLt
  rw [stackAddr, BitVec.toNat_add, toNat_zext16]
  omega

/-- Different stack pointers address different bytes. -/
theorem stackAddr_inj {cfg : Config} {sp sp' : Byte} : stackAddr cfg sp = stackAddr cfg sp' ↔ sp = sp' := by
  refine ⟨fun h => BitVec.eq_of_toNat_eq ?_, fun h => h ▸ rfl⟩
  have haddr := congrArg BitVec.toNat h
  rwa [toNat_stackAddr, toNat_stackAddr, Nat.add_left_cancel_iff] at haddr

/-- Settles O52: the base is the page times 256, so adding an index changes only the low byte. -/
theorem stackStaysInPage : Obligations.StackStaysInPage := by
  refine fun cfg sp => ⟨toNat_stackAddr cfg sp, ?_, fun _ => stackAddr_inj.mp⟩
  rw [show cfg.stackBase.toNat = 256 * cfg.stackPage.toNat from toNat_wordOf cfg.stackPage 0x00]
  exact Nat.mul_mod_right 256 _

/-- The bits of a flag at its place. -/
theorem getElem_flagBit : ∀ (f : Bool), ∀ k < 8, ∀ (j : Nat) (hj : j < 8), (flagBit f k)[j] = (f && decide (j = k)) := by
  decide

/-- Settles O42: each bit is set by the flag of that place and by no other. -/
theorem statusByteLayout : Obligations.StatusByteLayout := by
  refine ⟨fun p => ?_, fun _ _ => rfl⟩
  simp [pByte, getElem_flagBit]

/-- A push faults under Fatal at the bottom of the page, and nowhere else. -/
theorem pushFaults_iff {s : State} : pushFaults s = true ↔ Fatal s ∧ s.sp = 0 := by
  simp [pushFaults, Fatal, and_comm]

/-- A pop faults under Fatal at the top of the page, and nowhere else. -/
theorem popFaults_iff {s : State} : popFaults s = true ↔ Fatal s ∧ s.sp = 0xFF := by
  simp [popFaults, Fatal, and_comm]

theorem pushFaults_eq_false {s : State} (h : ¬ (Fatal s ∧ s.sp = 0)) : pushFaults s = false :=
  Bool.eq_false_iff.mpr (mt pushFaults_iff.mp h)

theorem popFaults_eq_false {s : State} (h : ¬ (Fatal s ∧ s.sp = 0xFF)) : popFaults s = false :=
  Bool.eq_false_iff.mpr (mt popFaults_iff.mp h)

/-- Pushing bytes one after the other: what the pushing instructions do (R50, R52). -/
def pushBytes (pc0 : Word) : List Byte → State → (State → Out) → Out
  | [], s, next => next s
  | v :: vs, s, next => pushByte pc0 v s fun t => pushBytes pc0 vs t next

/-- The machine after those pushes, all admitted. -/
def pushedAll : State → List Byte → State
  | s, [] => s
  | s, v :: vs => pushedAll (s.pushed v) vs

/-! Pushes change memory and SP. -/

@[simp] theorem pushedAll_a (s : State) (vs : List Byte) : (pushedAll s vs).a = s.a := by
  induction vs generalizing s with
  | nil => rfl
  | cons v vs ih => exact ih (s.pushed v)

@[simp] theorem pushedAll_x (s : State) (vs : List Byte) : (pushedAll s vs).x = s.x := by
  induction vs generalizing s with
  | nil => rfl
  | cons v vs ih => exact ih (s.pushed v)

@[simp] theorem pushedAll_y (s : State) (vs : List Byte) : (pushedAll s vs).y = s.y := by
  induction vs generalizing s with
  | nil => rfl
  | cons v vs ih => exact ih (s.pushed v)

@[simp] theorem pushedAll_pc (s : State) (vs : List Byte) : (pushedAll s vs).pc = s.pc := by
  induction vs generalizing s with
  | nil => rfl
  | cons v vs ih => exact ih (s.pushed v)

@[simp] theorem pushedAll_p (s : State) (vs : List Byte) : (pushedAll s vs).p = s.p := by
  induction vs generalizing s with
  | nil => rfl
  | cons v vs ih => exact ih (s.pushed v)

@[simp] theorem pushedAll_run (s : State) (vs : List Byte) : (pushedAll s vs).run = s.run := by
  induction vs generalizing s with
  | nil => rfl
  | cons v vs ih => exact ih (s.pushed v)

@[simp] theorem pushedAll_cfg (s : State) (vs : List Byte) : (pushedAll s vs).cfg = s.cfg := by
  induction vs generalizing s with
  | nil => rfl
  | cons v vs ih => exact ih (s.pushed v)

theorem sp_pushedAll (s : State) (vs : List Byte) : (pushedAll s vs).sp = s.sp - BitVec.ofNat 8 vs.length := by
  induction vs generalizing s with
  | nil => simp [pushedAll]
  | cons v vs ih => rw [pushedAll, ih, State.pushed_sp, List.length_cons]; bv_omega

/-- With room for them, all bytes are pushed. -/
theorem pushBytes_of_room {pc0 : Word} {vs : List Byte} {s : State} {next : State → Out}
    (hroom : Fatal s → vs.length ≤ s.sp.toNat) : pushBytes pc0 vs s next = next (pushedAll s vs) := by
  induction vs generalizing s with
  | nil => rfl
  | cons v vs ih =>
    have hadmitted : ¬ (Fatal s ∧ s.sp = 0) := by
      rintro ⟨hfatal, hsp⟩
      simpa [hsp] using hroom hfatal
    rw [pushBytes, pushByte_of_admitted (pushFaults_eq_false hadmitted), pushedAll]
    refine ih fun hfatal => ?_
    have hlength := hroom hfatal
    rw [List.length_cons] at hlength
    rw [State.pushed_sp]
    bv_omega

/-- Without room, as many bytes are pushed as there is room for, and the next push faults. -/
theorem pushBytes_of_no_room {pc0 : Word} {vs : List Byte} {s : State} {next : State → Out} (hfatal : Fatal s)
    (hroom : s.sp.toNat < vs.length) :
    pushBytes pc0 vs s next = raise (.stackExhaustion .push 0) pc0 (pushedAll s (vs.take s.sp.toNat)) := by
  induction vs generalizing s with
  | nil => exact absurd hroom (Nat.not_lt_zero _)
  | cons v vs ih =>
    by_cases hsp : s.sp = 0
    · rw [pushBytes, pushByte_of_faults (pushFaults_iff.mpr ⟨hfatal, hsp⟩), hsp]
      rfl
    · have hnext : s.sp.toNat = (s.pushed v).sp.toNat + 1 := by
        rw [State.pushed_sp]
        bv_omega
      rw [pushBytes, pushByte_of_admitted (pushFaults_eq_false fun h => hsp h.2), hnext, List.take_succ_cons, pushedAll]
      exact ih hfatal (by rw [List.length_cons] at hroom; omega)

/-- Popping bytes one after the other, with what an instruction does at each to the state whose SP is at the popped byte: what the
popping instructions do (R51, R52). -/
def popBytes (pc0 : Word) : List (State → State) → State → Out
  | [], s => .next s
  | f :: fs, s => popByte pc0 s fun _ t => popBytes pc0 fs (f t)

/-- The machine after those pops, all admitted. -/
def poppedAll : State → List (State → State) → State
  | s, [] => s
  | s, f :: fs => poppedAll (f s.popped) fs

/-- The next pop goes on from the same stack pointer under the same parameters. -/
def KeepsStack (f : State → State) : Prop := ∀ t, (f t).sp = t.sp ∧ (f t).cfg = t.cfg

theorem sp_poppedAll {fs : List (State → State)} (hkeeps : ∀ f ∈ fs, KeepsStack f) (s : State) :
    (poppedAll s fs).sp = s.sp + BitVec.ofNat 8 fs.length := by
  induction fs generalizing s with
  | nil => simp [poppedAll]
  | cons f fs ih =>
    obtain ⟨hf, hfs⟩ := List.forall_mem_cons.mp hkeeps
    rw [poppedAll, ih hfs, (hf s.popped).1, State.popped_sp, List.length_cons]
    bv_omega

/-- With room for them, all bytes are popped. -/
theorem popBytes_of_room {pc0 : Word} {fs : List (State → State)} {s : State} (hkeeps : ∀ f ∈ fs, KeepsStack f)
    (hroom : Fatal s → s.sp.toNat + fs.length ≤ 255) : popBytes pc0 fs s = .next (poppedAll s fs) := by
  induction fs generalizing s with
  | nil => rfl
  | cons f fs ih =>
    obtain ⟨hf, hfs⟩ := List.forall_mem_cons.mp hkeeps
    obtain ⟨hsp, hcfg⟩ := hf s.popped
    rw [List.length_cons] at hroom
    have hadmitted : ¬ (Fatal s ∧ s.sp = 0xFF) := by
      rintro ⟨hfatal, htop⟩
      have hle := hroom hfatal
      simp only [htop, BitVec.reduceToNat] at hle
      omega
    rw [popBytes, popByte_of_admitted (popFaults_eq_false hadmitted), poppedAll]
    refine ih hfs fun hfatal => ?_
    have hle := hroom (by rwa [Fatal, hcfg] at hfatal)
    rw [hsp, State.popped_sp]
    bv_omega

/-- Without room, as many bytes are popped as there is room for, and the next pop faults. -/
theorem popBytes_of_no_room {pc0 : Word} {fs : List (State → State)} {s : State} (hkeeps : ∀ f ∈ fs, KeepsStack f)
    (hfatal : Fatal s) (hroom : 255 < s.sp.toNat + fs.length) :
    popBytes pc0 fs s = raise (.stackExhaustion .pop 0xFF) pc0 (poppedAll s (fs.take (255 - s.sp.toNat))) := by
  induction fs generalizing s with
  | nil =>
    have hsp := s.sp.isLt
    rw [List.length_nil] at hroom
    omega
  | cons f fs ih =>
    obtain ⟨hf, hfs⟩ := List.forall_mem_cons.mp hkeeps
    obtain ⟨hsp, hcfg⟩ := hf s.popped
    by_cases htop : s.sp = 0xFF
    · rw [popBytes, popByte_of_faults (popFaults_iff.mpr ⟨hfatal, htop⟩), htop]
      rfl
    · have hnext : (f s.popped).sp.toNat = s.sp.toNat + 1 := by
        rw [hsp, State.popped_sp]
        bv_omega
      have htake : 255 - s.sp.toNat = 255 - (f s.popped).sp.toNat + 1 := by
        have hlt : s.sp.toNat < 255 := by bv_omega
        omega
      rw [popBytes, popByte_of_admitted (popFaults_eq_false fun h => htop h.2), htake, List.take_succ_cons, poppedAll]
      refine ih hfs (by rw [Fatal, hcfg]; exact hfatal) ?_
      rw [List.length_cons] at hroom
      omega

end Sys2Proof.Proofs

/-! PROOFS. What each mnemonic does, said once: the state it comes to where it completes, where it completes, and what it comes to
elsewhere. -/

namespace Sys2Proof.Proofs

open Sys2Proof.Machine Sys2Proof.Statements

/-- The value of an operand, in the modes that have one. -/
def byteOf (o : Operand) (s : State) : Byte := (operandValue o s).getD 0

/-- The effective address of an operand, in the modes that have one. -/
def addressOf (o : Operand) (s : State) : Word := (effectiveAddress o s).getD 0

/-- The location of an operand, in the modes that have one. -/
def locOf (o : Operand) (s : State) : Loc := (operandLoc o s).getD .regA

/-- The offset byte of a branch. -/
def offsetOf : Operand → Byte
  | .relative off => off
  | _ => 0

/-- The bytes that a pushing instruction pushes, in order (R190, R193, R200, R201). -/
def pushedBytes : Op → State → List Byte
  | .pha, s => [s.a]
  | .php, s => [pushedStatus s.p]
  | .jsr, s => [hi (s.pc + 2), lo (s.pc + 2)]
  | .brk, s => [hi (s.pc + 2), lo (s.pc + 2), pushedStatus s.p]
  | _, _ => []

/-- What a pushing instruction does after its pushes. -/
def afterPushes : Op → Operand → State → State
  | .jsr, o, t => t.setPc (addressOf o t)
  | .brk, _, t => (t.setP { t.p with i := true }).setPc (memReadWord t.mem t.cfg.brkVector)
  | _, _, t => t

/-- The word whose high byte was just popped. -/
def poppedWord (t : State) : Word := wordOf t.stackByte (stackAt t (t.sp - 1))

/-- What a popping instruction does after each of its pops (R191, R194, R202, R203). -/
def popSteps : Op → List (State → State)
  | .pla => [fun t => (t.setA t.stackByte).setP (t.p.withZN t.stackByte)]
  | .plp => [fun t => t.setP (loadP t.p t.stackByte)]
  | .rts => [id, fun t => t.setPc (poppedWord t + 1)]
  | .rti => [fun t => t.setP (loadP t.p t.stackByte), id, fun t => t.setPc (poppedWord t)]
  | _ => []

/-- A shift or rotate of the operand's location. -/
def shifted (f : Byte → Bool → Shifted) (o : Operand) (s : State) : State :=
  ((s.past o).writeLoc (locOf o s) (f (s.readLoc (locOf o s)) s.p.c).r).setP (s.p.withShifted (f (s.readLoc (locOf o s)) s.p.c))

/-- A branch, taken or not. -/
def branched (taken : Bool) (o : Operand) (s : State) : State :=
  (s.past o).setPc (if taken then branchTarget (offsetOf o) (s.past o).pc else (s.past o).pc)

/-- The state that an instruction comes to where it completes. -/
def effect (op : Op) (o : Operand) (s : State) : State :=
  match op with
  | .lda => ((s.past o).setA (byteOf o s)).setP (s.p.withZN (byteOf o s))
  | .ldx => ((s.past o).setX (byteOf o s)).setP (s.p.withZN (byteOf o s))
  | .ldy => ((s.past o).setY (byteOf o s)).setP (s.p.withZN (byteOf o s))
  | .sta => (s.past o).store (addressOf o s) s.a
  | .stx => (s.past o).store (addressOf o s) s.x
  | .sty => (s.past o).store (addressOf o s) s.y
  | .adc => ((s.past o).setA (addC s.a (byteOf o s) s.p.c).r).setP (s.p.withSum (addC s.a (byteOf o s) s.p.c))
  | .sbc => ((s.past o).setA (subC s.a (byteOf o s) s.p.c).r).setP (s.p.withSum (subC s.a (byteOf o s) s.p.c))
  | .and => ((s.past o).setA (s.a &&& byteOf o s)).setP (s.p.withZN (s.a &&& byteOf o s))
  | .ora => ((s.past o).setA (s.a ||| byteOf o s)).setP (s.p.withZN (s.a ||| byteOf o s))
  | .eor => ((s.past o).setA (s.a ^^^ byteOf o s)).setP (s.p.withZN (s.a ^^^ byteOf o s))
  | .bit => (s.past o).setP (s.p.withBitTested (bitTest s.a (byteOf o s)))
  | .cmp => (s.past o).setP (s.p.withCompared (compareBytes s.a (byteOf o s)))
  | .cpx => (s.past o).setP (s.p.withCompared (compareBytes s.x (byteOf o s)))
  | .cpy => (s.past o).setP (s.p.withCompared (compareBytes s.y (byteOf o s)))
  | .inc => ((s.past o).store (addressOf o s) (inc (byteOf o s))).setP (s.p.withZN (inc (byteOf o s)))
  | .dec => ((s.past o).store (addressOf o s) (dec (byteOf o s))).setP (s.p.withZN (dec (byteOf o s)))
  | .inx => ((s.past o).setX (inc s.x)).setP (s.p.withZN (inc s.x))
  | .iny => ((s.past o).setY (inc s.y)).setP (s.p.withZN (inc s.y))
  | .dex => ((s.past o).setX (dec s.x)).setP (s.p.withZN (dec s.x))
  | .dey => ((s.past o).setY (dec s.y)).setP (s.p.withZN (dec s.y))
  | .asl => shifted (fun v _ => asl v) o s
  | .lsr => shifted (fun v _ => lsr v) o s
  | .rol => shifted rol o s
  | .ror => shifted ror o s
  | .bcc => branched (!s.p.c) o s
  | .bcs => branched s.p.c o s
  | .beq => branched s.p.z o s
  | .bne => branched (!s.p.z) o s
  | .bmi => branched s.p.n o s
  | .bpl => branched (!s.p.n) o s
  | .bvc => branched (!s.p.v) o s
  | .bvs => branched s.p.v o s
  | .jmp => (s.past o).setPc (addressOf o s)
  | .tax => ((s.past o).setX s.a).setP (s.p.withZN s.a)
  | .tay => ((s.past o).setY s.a).setP (s.p.withZN s.a)
  | .txa => ((s.past o).setA s.x).setP (s.p.withZN s.x)
  | .tya => ((s.past o).setA s.y).setP (s.p.withZN s.y)
  | .tsx => ((s.past o).setX s.sp).setP (s.p.withZN s.sp)
  | .txs => (s.past o).setSp s.x
  | .clc => (s.past o).setP { s.p with c := false }
  | .sec => (s.past o).setP { s.p with c := true }
  | .cli => (s.past o).setP { s.p with i := false }
  | .sei => (s.past o).setP { s.p with i := true }
  | .cld => (s.past o).setP { s.p with d := false }
  | .sed => (s.past o).setP { s.p with d := true }
  | .clv => (s.past o).setP { s.p with v := false }
  | .nop => s.past o
  | .pha | .php | .jsr | .brk => afterPushes op o (pushedAll (s.past o) (pushedBytes op s))
  | .pla | .plp | .rts | .rti => poppedAll (s.past o) (popSteps op)

theorem effect_of_push {op : Op} (o : Operand) (s : State) (h : op ∈ pushingOps) :
    effect op o s = afterPushes op o (pushedAll (s.past o) (pushedBytes op s)) := by
  obtain rfl | rfl | rfl | rfl : op = .pha ∨ op = .php ∨ op = .jsr ∨ op = .brk := by simpa [pushingOps] using h
  all_goals rfl

theorem effect_of_pop {op : Op} (o : Operand) (s : State) (h : op ∈ poppingOps) :
    effect op o s = poppedAll (s.past o) (popSteps op) := by
  obtain rfl | rfl | rfl | rfl : op = .pla ∨ op = .plp ∨ op = .rts ∨ op = .rti := by simpa [poppingOps] using h
  all_goals rfl

/-- Every instruction that neither pushes nor pops completes from every state. -/
theorem exec_eq_next_of_not_stack {i : Instr} (s : State) (h : i.op ∉ pushingOps ++ poppingOps) :
    exec i s = .next (effect i.op i.operand s) := by
  cases i with
  | pha | php | brk | pla | plp | rts | rti => exact absurd (by decide) h
  | jsr w => exact absurd (show Op.jsr ∈ pushingOps ++ poppingOps by decide) h
  | _ => rfl

/-- JSR pushes the address of its last byte, which is two past its opcode. -/
theorem past_absolute_pc_sub_one (w : Word) (s : State) : (s.past (.absolute w)).pc - 1 = s.pc + 2 :=
  add_sub_assoc s.pc 3 1

/-- BRK pushes the address two past its opcode. -/
theorem past_implicit_pc_add_one (s : State) : (s.past .implicit).pc + 1 = s.pc + 2 :=
  add_assoc s.pc 1 1

/-- A pushing instruction is its pushes and what it does after them. -/
theorem exec_eq_pushBytes {i : Instr} (s : State) (h : i.op ∈ pushingOps) :
    exec i s = pushBytes s.pc (pushedBytes i.op s) (s.past i.operand) fun t => .next (afterPushes i.op i.operand t) := by
  cases i with
  | pha | php => rfl
  | jsr w =>
    simp only [Instr.op, pushedBytes, ← past_absolute_pc_sub_one w]
    rfl
  | brk =>
    simp only [Instr.op, pushedBytes, ← past_implicit_pc_add_one]
    rfl
  | _ => simp [Instr.op, pushingOps] at h

/-- Two pops agree that go on to the same outcome. -/
theorem popByte_congr {pc0 : Word} {s : State} {next next' : Byte → State → Out}
    (h : next s.popped.stackByte s.popped = next' s.popped.stackByte s.popped) :
    popByte pc0 s next = popByte pc0 s next' := by
  rw [popByte, popByte, h]

/-- Of two popped bytes, the second is the high byte of the word they are. -/
theorem poppedWord_popped_popped (s : State) :
    poppedWord s.popped.popped = wordOf s.popped.popped.stackByte s.popped.stackByte := by
  rw [poppedWord, State.popped_sp, add_sub_cancel_right]
  rfl

/-- A popping instruction is its pops with what it does after each. -/
theorem exec_eq_popBytes {i : Instr} (s : State) (h : i.op ∈ poppingOps) :
    exec i s = popBytes s.pc (popSteps i.op) (s.past i.operand) := by
  cases i with
  | pla | plp => rfl
  | rts =>
    simp only [exec, execRts, popWord, Instr.op, popSteps, popBytes, id, Instr.operand]
    refine popByte_congr (popByte_congr ?_)
    rw [poppedWord_popped_popped]
  | rti =>
    simp only [exec, execRti, returnFromInterrupt, popWord, Instr.op, popSteps, popBytes, id, Instr.operand]
    refine popByte_congr (popByte_congr (popByte_congr ?_))
    rw [poppedWord_popped_popped]
  | _ => simp [Instr.op, poppingOps] at h

theorem popSteps_keepsStack (op : Op) : ∀ f ∈ popSteps op, KeepsStack f := by
  cases op <;> simp [popSteps, KeepsStack]

/-- How many bytes an instruction pushes. -/
def pushCount : Op → Nat
  | .pha | .php => 1
  | .jsr => 2
  | .brk => 3
  | _ => 0

/-- How many bytes an instruction pops. -/
def popCount : Op → Nat
  | .pla | .plp => 1
  | .rts => 2
  | .rti => 3
  | _ => 0

theorem length_pushedBytes (op : Op) (s : State) : (pushedBytes op s).length = pushCount op := by
  cases op <;> rfl

theorem length_popSteps (op : Op) : (popSteps op).length = popCount op := by
  cases op <;> rfl

/-- Under Fatal the stack has room for what an instruction pushes or pops. -/
def HasRoom (op : Op) (s : State) : Prop := Fatal s → pushCount op ≤ s.sp.toNat ∧ s.sp.toNat + popCount op ≤ 255

/-- An instruction with room on the stack completes. -/
theorem exec_of_room {i : Instr} {s : State} (hroom : HasRoom i.op s) : exec i s = .next (effect i.op i.operand s) := by
  by_cases hpush : i.op ∈ pushingOps
  · rw [exec_eq_pushBytes s hpush, pushBytes_of_room, effect_of_push i.operand s hpush]
    exact fun hfatal => (length_pushedBytes i.op s).trans_le (hroom hfatal).1
  · by_cases hpop : i.op ∈ poppingOps
    · rw [exec_eq_popBytes s hpop, popBytes_of_room (popSteps_keepsStack i.op), effect_of_pop i.operand s hpop]
      exact fun hfatal => (length_popSteps i.op).symm ▸ (hroom hfatal).2
    · exact exec_eq_next_of_not_stack s (by simp [hpush, hpop])

theorem mem_pushingOps_iff {op : Op} : op ∈ pushingOps ↔ 0 < pushCount op := by
  cases op <;> decide

theorem mem_poppingOps_iff {op : Op} : op ∈ poppingOps ↔ 0 < popCount op := by
  cases op <;> decide

/-- A fault raised where SP is known. -/
theorem raise_faultsAt_of_sp {cause : FaultCause} {pc0 : Word} {u : State} {sp : Byte} (h : u.sp = sp) :
    FaultsAt (raise cause pc0 u) cause pc0 { u with sp := sp } := by
  subst h
  exact raise_faultsAt cause pc0 u

/-- An instruction with room for `k` of its pushes only makes those, and faults at the bottom of the page. -/
theorem exec_faultsAt_of_push {i : Instr} {s : State} (k : Nat) (hfatal : Fatal s) (hsp : s.sp.toNat = k)
    (hk : k < pushCount i.op) :
    FaultsAt (exec i s) (.stackExhaustion .push 0) s.pc
      { pushedAll (s.past i.operand) ((pushedBytes i.op s).take k) with sp := 0 } := by
  subst hsp
  have hbottom : (pushedAll (s.past i.operand) ((pushedBytes i.op s).take s.sp.toNat)).sp = 0 := by
    rw [sp_pushedAll, List.length_take, length_pushedBytes, Nat.min_eq_left hk.le, BitVec.ofNat_toNat]
    simp
  rw [exec_eq_pushBytes s (mem_pushingOps_iff.mpr (Nat.zero_lt_of_lt hk)),
    pushBytes_of_no_room (s := s.past i.operand) hfatal ((length_pushedBytes i.op s).symm ▸ hk)]
  exact raise_faultsAt_of_sp hbottom

/-- An instruction with room for `k` of its pops only makes those, and faults at the top of the page. -/
theorem exec_faultsAt_of_pop {i : Instr} {s : State} (k : Nat) (hfatal : Fatal s) (hsp : s.sp.toNat + k = 255)
    (hk : k < popCount i.op) :
    FaultsAt (exec i s) (.stackExhaustion .pop 0xFF) s.pc
      { poppedAll (s.past i.operand) ((popSteps i.op).take k) with sp := 0xFF } := by
  obtain rfl : k = 255 - s.sp.toNat := by omega
  have hkeeps : ∀ f ∈ (popSteps i.op).take (255 - s.sp.toNat), KeepsStack f :=
    fun f hf => popSteps_keepsStack i.op f (List.mem_of_mem_take hf)
  have htop : (poppedAll (s.past i.operand) ((popSteps i.op).take (255 - s.sp.toNat))).sp = 0xFF := by
    rw [sp_poppedAll hkeeps, List.length_take, length_popSteps, Nat.min_eq_left hk.le, State.past_sp]
    bv_omega
  have hroom : 255 < s.sp.toNat + (popSteps i.op).length := by
    rw [length_popSteps]
    omega
  rw [exec_eq_popBytes s (mem_poppingOps_iff.mpr (Nat.zero_lt_of_lt hk)),
    popBytes_of_no_room (s := s.past i.operand) (popSteps_keepsStack i.op) hfatal hroom]
  exact raise_faultsAt_of_sp htop

/-- The instruction comes to an end of the stack under Fatal: a push faults at the bottom, or a pop at the top. -/
def Exhausts (i : Instr) (s : State) : Prop :=
  Fatal s ∧
    ((i.op ∈ pushingOps ∧ ∃ u, u.sp = 0 ∧ FaultsAt (exec i s) (.stackExhaustion .push 0) s.pc u) ∨
     (i.op ∈ poppingOps ∧ ∃ u, u.sp = 0xFF ∧ FaultsAt (exec i s) (.stackExhaustion .pop 0xFF) s.pc u))

/-- An instruction without room on the stack comes to an end of it. -/
theorem exhausts_of_no_room {i : Instr} {s : State} (hroom : ¬ HasRoom i.op s) : Exhausts i s := by
  obtain ⟨hfatal, hcounts⟩ := Classical.not_imp.mp hroom
  have hsp := s.sp.isLt
  refine ⟨hfatal, ?_⟩
  by_cases hpush : s.sp.toNat < pushCount i.op
  · exact .inl ⟨mem_pushingOps_iff.mpr (Nat.zero_lt_of_lt hpush), _, rfl, exec_faultsAt_of_push _ hfatal rfl hpush⟩
  · have hpop : 255 - s.sp.toNat < popCount i.op := by omega
    exact .inr ⟨mem_poppingOps_iff.mpr (Nat.zero_lt_of_lt hpop), _, rfl,
      exec_faultsAt_of_pop _ hfatal (by omega) hpop⟩

/-- An instruction completes exactly where it has room on the stack, in one state. -/
theorem exec_eq_next_iff {i : Instr} {s t : State} :
    exec i s = .next t ↔ HasRoom i.op s ∧ t = effect i.op i.operand s := by
  by_cases hroom : HasRoom i.op s
  · simp [exec_of_room hroom, hroom, eq_comm]
  · refine ⟨fun h => ?_, fun h => absurd h.1 hroom⟩
    obtain ⟨-, ⟨-, u, -, f, hf, -⟩ | ⟨-, u, -, f, hf, -⟩⟩ := exhausts_of_no_room hroom
    · rw [hf] at h; cases h
    · rw [hf] at h; cases h

/-- Under Wrap there is always room. -/
theorem hasRoom_of_not_fatal {op : Op} {s : State} (h : ¬ Fatal s) : HasRoom op s := fun hfatal => absurd hfatal h

/-- There is always room for nothing. -/
theorem hasRoom_of_not_stack {op : Op} (s : State) (h : op ∉ pushingOps ++ poppingOps) : HasRoom op s := by
  have hsp := s.sp.isLt
  rw [List.mem_append, mem_pushingOps_iff, mem_poppingOps_iff] at h
  exact fun _ => by omega

end Sys2Proof.Proofs

/-! PROOFS. The instructions of the stack (45_control.md R190 to R194; 46_stack.md R200 to R203): where each completes and where it
faults. -/

namespace Sys2Proof.Proofs

open Sys2Proof.Machine Sys2Proof.Statements

/-- Room to push, as the statements write it. -/
theorem hasRoom_of_push {op : Op} {s : State} {n : Nat} (hpush : pushCount op = n + 1) (hpop : popCount op = 0)
    (h : ¬ (Fatal s ∧ s.sp.toNat ≤ n)) : HasRoom op s := by
  have hsp := s.sp.isLt
  intro hfatal
  have hlt : ¬ s.sp.toNat ≤ n := fun hle => h ⟨hfatal, hle⟩
  omega

/-- Room to pop, as the statements write it. -/
theorem hasRoom_of_pop {op : Op} {s : State} {n : Nat} (hpush : pushCount op = 0) (hpop : popCount op = n + 1)
    (h : ¬ (Fatal s ∧ 255 - n ≤ s.sp.toNat)) : HasRoom op s := by
  intro hfatal
  have hlt : ¬ 255 - n ≤ s.sp.toNat := fun hle => h ⟨hfatal, hle⟩
  omega

theorem sub_one_sub_one (sp : Byte) : sp - 1 - 1 = sp - 2 := sub_sub sp 1 1

theorem sub_two_sub_one (sp : Byte) : sp - 2 - 1 = sp - 3 := sub_sub sp 2 1

theorem add_one_add_one (sp : Byte) : sp + 1 + 1 = sp + 2 := add_assoc sp 1 1

theorem add_two_add_one (sp : Byte) : sp + 2 + 1 = sp + 3 := add_assoc sp 2 1

/-- An admitted push in the words of the statements. -/
theorem pushed_eq (s : State) (v : Byte) : s.pushed v = { s with mem := pushAt s s.mem s.sp v, sp := s.sp - 1 } := rfl

/-- Settles O38: JSR makes two pushes after its operand is read, and faults at the first or the second of them. -/
theorem jsrResult : Obligations.JsrResult := by
  refine ⟨hasOpcodes_of_perm (by decide), fun w s => ⟨fun h => ?completes, fun ⟨hfatal, hsp⟩ => ?first,
    fun ⟨hfatal, hsp⟩ => ?second⟩⟩
  case completes =>
    rw [exec_of_room (i := .jsr w) (hasRoom_of_push rfl rfl h), ← sub_one_sub_one]
    simp only [Instr.op, effect, afterPushes, pushedBytes, pushedAll, pushed_eq]
    rfl
  case first => exact hsp ▸ exec_faultsAt_of_push (i := .jsr w) 0 hfatal (congrArg BitVec.toNat hsp) (show 0 < 2 by decide)
  case second =>
    rw [← hsp]
    exact exec_faultsAt_of_push (i := .jsr w) 1 hfatal (congrArg BitVec.toNat hsp) (show 1 < 2 by decide)

/-- Settles O39: RTS makes two pops, and faults at the first or the second of them. -/
theorem rtsResult : Obligations.RtsResult := by
  refine ⟨hasOpcodes_of_perm (by decide), fun s => ⟨fun h => ?completes, fun ⟨hfatal, hsp⟩ => ?first,
    fun ⟨hfatal, hsp⟩ => ?second⟩⟩
  case completes =>
    have hlow : s.sp + 2 - 1 = s.sp + 1 := add_sub_assoc s.sp 2 1
    rw [exec_of_room (i := .rts) (hasRoom_of_pop rfl rfl h), ← hlow, ← add_one_add_one]
    rfl
  case first => exact hsp ▸ exec_faultsAt_of_pop (i := .rts) 0 hfatal (by rw [hsp]; rfl) (by decide)
  case second => exact exec_faultsAt_of_pop (i := .rts) 1 hfatal (by rw [hsp]; rfl) (by decide)

/-- Settles O40: BRK makes three pushes and then reads its vector, and faults at one of the pushes. -/
theorem brkResult : Obligations.BrkResult := by
  refine ⟨hasOpcodes_of_perm (by decide), fun s => ⟨fun h => ?completes, fun ⟨hfatal, hsp⟩ => ?first,
    fun ⟨hfatal, hsp⟩ => ?second, fun ⟨hfatal, hsp⟩ => ?third⟩⟩
  case completes =>
    rw [exec_of_room (i := .brk) (hasRoom_of_push rfl rfl h), ← sub_two_sub_one, ← sub_one_sub_one]
    simp only [Instr.op, effect, afterPushes, pushedBytes, pushedAll, pushed_eq]
    rfl
  case first => exact hsp ▸ exec_faultsAt_of_push (i := .brk) 0 hfatal (congrArg BitVec.toNat hsp) (by decide)
  case second => exact exec_faultsAt_of_push (i := .brk) 1 hfatal (congrArg BitVec.toNat hsp) (by decide)
  case third => exact exec_faultsAt_of_push (i := .brk) 2 hfatal (congrArg BitVec.toNat hsp) (by decide)

/-- Settles O41: RTI makes three pops and loads the flags after the first, and faults at one of the pops. -/
theorem rtiResult : Obligations.RtiResult := by
  refine ⟨hasOpcodes_of_perm (by decide), fun s => ⟨fun h => ?completes, fun ⟨hfatal, hsp⟩ => ?first,
    fun ⟨hfatal, hsp⟩ => ?later⟩⟩
  case completes =>
    have hlow : s.sp + 3 - 1 = s.sp + 2 := add_sub_assoc s.sp 3 1
    rw [exec_of_room (i := .rti) (hasRoom_of_pop rfl rfl h), ← hlow, ← add_two_add_one, ← add_one_add_one]
    rfl
  case first => exact hsp ▸ exec_faultsAt_of_pop (i := .rti) 0 hfatal (by rw [hsp]; rfl) (by decide)
  case later =>
    rcases hsp with hsp | hsp
    · exact exec_faultsAt_of_pop (i := .rti) 1 hfatal (by rw [hsp]; rfl) (by decide)
    · exact exec_faultsAt_of_pop (i := .rti) 2 hfatal (by rw [hsp]; rfl) (by decide)

/-- Room for one byte, as the statements write it. -/
theorem hasRoom_of_push_one {op : Op} {s : State} (hpush : pushCount op = 1) (hpop : popCount op = 0)
    (h : ¬ (Fatal s ∧ s.sp = 0)) : HasRoom op s :=
  hasRoom_of_push hpush hpop fun ⟨hfatal, hle⟩ => h ⟨hfatal, BitVec.eq_of_toNat_eq (Nat.le_zero.mp hle)⟩

theorem hasRoom_of_pop_one {op : Op} {s : State} (hpush : pushCount op = 0) (hpop : popCount op = 1)
    (h : ¬ (Fatal s ∧ s.sp = 0xFF)) : HasRoom op s :=
  hasRoom_of_pop hpush hpop fun ⟨hfatal, hle⟩ => h ⟨hfatal, by bv_omega⟩

/-- Settles O43: PHA makes one push and PLA one pop, where each may fault. -/
theorem phaPlaResults : Obligations.PhaPlaResults := by
  refine ⟨hasOpcodes_of_perm (by decide), hasOpcodes_of_perm (by decide), fun s => ⟨fun h => ?pushes, fun ⟨hfatal, hsp⟩ => ?pushFaults,
    fun h => ?pops, fun ⟨hfatal, hsp⟩ => ?popFaults⟩⟩
  case pushes => exact exec_of_room (i := .pha) (hasRoom_of_push_one rfl rfl h)
  case pushFaults => exact hsp ▸ exec_faultsAt_of_push (i := .pha) 0 hfatal (congrArg BitVec.toNat hsp) (by decide)
  case pops => exact exec_of_room (i := .pla) (hasRoom_of_pop_one rfl rfl h)
  case popFaults => exact hsp ▸ exec_faultsAt_of_pop (i := .pla) 0 hfatal (by rw [hsp]; rfl) (by decide)

/-- Settles O44: PHP makes one push and PLP one pop, where each may fault. -/
theorem phpPlpResults : Obligations.PhpPlpResults := by
  refine ⟨hasOpcodes_of_perm (by decide), hasOpcodes_of_perm (by decide), fun s => ⟨fun h => ?pushes, fun ⟨hfatal, hsp⟩ => ?pushFaults,
    fun h => ?pops, fun ⟨hfatal, hsp⟩ => ?popFaults⟩⟩
  case pushes => exact exec_of_room (i := .php) (hasRoom_of_push_one rfl rfl h)
  case pushFaults => exact hsp ▸ exec_faultsAt_of_push (i := .php) 0 hfatal (congrArg BitVec.toNat hsp) (by decide)
  case pops => exact exec_of_room (i := .plp) (hasRoom_of_pop_one rfl rfl h)
  case popFaults => exact hsp ▸ exec_faultsAt_of_pop (i := .plp) 0 hfatal (by rw [hsp]; rfl) (by decide)

end Sys2Proof.Proofs

/-! PROOFS. The faults of instructions (60_exceptions.md R242), and what no instruction answers. -/

namespace Sys2Proof.Proofs

open Sys2Proof.Machine Sys2Proof.Statements

/-- An instruction that faults comes to an end of the stack. -/
theorem exhausts_of_exec_eq_fault {i : Instr} {s : State} {f : Fault} (h : exec i s = .fault f) : Exhausts i s := by
  refine exhausts_of_no_room fun hroom => ?_
  rw [exec_of_room hroom] at h
  cases h

/-- A fault at a state has the record and leaves the halted state of that state. -/
theorem faultsAt_of_eq_fault {out : Out} {cause : FaultCause} {pc0 : Word} {u : State} {f : Fault} (h : FaultsAt out cause pc0 u)
    (hf : out = .fault f) : f.record.cause = cause ∧ f.left = { u with run := .halted f.record } := by
  obtain ⟨f', hf', hrecord, hleft⟩ := h
  obtain rfl : f' = f := by rw [hf'] at hf; exact Host.Outcome.fault.inj hf
  exact ⟨by rw [hrecord], hleft⟩

/-- Settles O57: an instruction completes where it has room on the stack, and elsewhere comes to an end of it. -/
theorem onlyTheStackFaults : Obligations.OnlyTheStackFaults := by
  refine ⟨fun i s h => ⟨_, exec_of_room (hasRoom_of_not_fatal h)⟩, fun i s h => ⟨_, exec_of_room (hasRoom_of_not_stack s h)⟩,
    fun i s f h => ?_⟩
  obtain ⟨hfatal, ⟨hop, u, hsp, hfaults⟩ | ⟨hop, u, hsp, hfaults⟩⟩ := exhausts_of_exec_eq_fault h
  · obtain ⟨hcause, hleft⟩ := faultsAt_of_eq_fault hfaults h
    exact ⟨hfatal, .inl ⟨hop, hcause, by rw [hcause]; rfl, by rw [hleft]; exact hsp⟩⟩
  · obtain ⟨hcause, hleft⟩ := faultsAt_of_eq_fault hfaults h
    exact ⟨hfatal, .inr ⟨hop, hcause, by rw [hcause]; rfl, by rw [hleft]; exact hsp⟩⟩

/-- Settles O22: the resolver raises the violation where there is no address, and the faults of instructions are those of the stack. -/
theorem contractViolationUnreached : Obligations.ContractViolationUnreached := by
  refine ⟨fun o s next hmode => ?violation, fun i s f h => ?unreached⟩
  case violation =>
    have hnone : effectiveAddress o s = none := by
      cases o <;> simp [Operand.mode] at hmode <;> rfl
    obtain ⟨f, hf, hrecord, -⟩ := raise_eq (.resolverContract o.mode) s.pc (s.setPc (s.pc + 1))
    refine ⟨f, ?_, ?_, ?_⟩
    · rw [resolveAddress, hnone]; exact hf
    · rw [hrecord]; rfl
    · rw [hrecord]; rfl
  case unreached =>
    obtain ⟨-, ⟨-, hcause, -⟩ | ⟨-, hcause, -⟩⟩ := onlyTheStackFaults.2.2 i s f h
    · exact ⟨.push, 0x00, hcause⟩
    · exact ⟨.pop, 0xFF, hcause⟩

/-- An instruction completes, or faults and leaves a state halted with the record of the fault. -/
theorem exec_next_or_fault (i : Instr) (s : State) :
    (∃ t, exec i s = .next t) ∨ ∃ f, exec i s = .fault f ∧ f.left.run = .halted f.record := by
  by_cases hroom : HasRoom i.op s
  · exact .inl ⟨_, exec_of_room hroom⟩
  · obtain ⟨-, ⟨-, u, -, f, hf, -, hleft⟩ | ⟨-, u, -, f, hf, -, hleft⟩⟩ := exhausts_of_no_room hroom
    · exact .inr ⟨f, hf, by rw [hleft]⟩
    · exact .inr ⟨f, hf, by rw [hleft]⟩

theorem exec_ne_refused (i : Instr) (s : State) (r : Refusal) : exec i s ≠ .refused r := by
  obtain ⟨t, h⟩ | ⟨f, h, -⟩ := exec_next_or_fault i s
  · rw [h]; nofun
  · rw [h]; nofun

end Sys2Proof.Proofs

/-! PROOFS. Frames: what the state that each mnemonic comes to has in common with the one before (10_state.md R21, R23, R27). -/

namespace Sys2Proof.Proofs

open Sys2Proof.Machine Sys2Proof.Statements Sys2Proof.Safety

/-- No instruction changes the run state. -/
theorem effect_run (op : Op) (o : Operand) (s : State) : (effect op o s).run = s.run := by
  cases op with
  | asl | lsr | rol | ror => exact State.writeLoc_run _ _ _
  | pha | php | jsr | brk => simp [effect, afterPushes]
  | _ => rfl

/-- No instruction changes the parameters. -/
theorem effect_cfg (op : Op) (o : Operand) (s : State) : (effect op o s).cfg = s.cfg := by
  cases op with
  | asl | lsr | rol | ror => exact State.writeLoc_cfg _ _ _
  | pha | php | jsr | brk => simp [effect, afterPushes]
  | _ => rfl

/-- The location of an operand that has an effective address is the byte there. -/
theorem locOf_of_effectiveAddress {o : Operand} {s : State} {ea : Word} (h : effectiveAddress o s = some ea) :
    locOf o s = .mem ea := by
  rw [locOf, operandLoc_of_effectiveAddress h]
  rfl

/-- A shift or rotate of a byte in memory leaves A. -/
theorem shifted_a {f : Byte → Bool → Shifted} {o : Operand} {s : State} {ea : Word} (h : effectiveAddress o s = some ea) :
    (shifted f o s).a = s.a := by
  rw [shifted, locOf_of_effectiveAddress h]
  rfl

theorem effect_a (i : Instr) (s : State) : (effect i.op i.operand s).a = s.a ∨ WritesA i := by
  by_cases hmode : i.mode = .accumulator
  · exact .inr (.inr hmode)
  · have hshift : i.op ∈ [.asl, .lsr, .rol, .ror] → ∃ ea, effectiveAddress i.operand s = some ea := fun hop =>
      (exists_effectiveAddress_iff i.operand s).mpr (mode_not_mem_addresslessModes_of_shift hop hmode)
    unfold WritesA
    generalize i.op = op at *
    cases op with
    | lda | adc | sbc | and | ora | eor | pla | txa | tya => exact .inr (.inl (by decide))
    | asl | lsr | rol | ror => exact .inl (shifted_a (hshift (by decide)).choose_spec)
    | pha | php | jsr | brk => exact .inl (by simp [effect, afterPushes])
    | _ => exact .inl rfl

theorem effect_x (op : Op) (o : Operand) (s : State) :
    (effect op o s).x = s.x ∨ op ∈ [.ldx, .inx, .dex, .tax, .tsx] := by
  cases op with
  | ldx | inx | dex | tax | tsx => exact .inr (by decide)
  | asl | lsr | rol | ror => exact .inl (State.writeLoc_x _ _ _)
  | pha | php | jsr | brk => exact .inl (by simp [effect, afterPushes])
  | _ => exact .inl rfl

theorem effect_y (op : Op) (o : Operand) (s : State) : (effect op o s).y = s.y ∨ op ∈ [.ldy, .iny, .dey, .tay] := by
  cases op with
  | ldy | iny | dey | tay => exact .inr (by decide)
  | asl | lsr | rol | ror => exact .inl (State.writeLoc_y _ _ _)
  | pha | php | jsr | brk => exact .inl (by simp [effect, afterPushes])
  | _ => exact .inl rfl

theorem effect_sp (op : Op) (o : Operand) (s : State) :
    (effect op o s).sp = s.sp ∨ op ∈ .txs :: pushingOps ++ poppingOps := by
  cases op with
  | txs | pha | php | jsr | brk | pla | plp | rts | rti => exact .inr (by decide)
  | asl | lsr | rol | ror => exact .inl (State.writeLoc_sp _ _ _)
  | _ => exact .inl rfl

/-- Settles O47: an instruction that completes comes to its effect, whose registers are compared mnemonic by mnemonic. -/
theorem registerFrame : Obligations.RegisterFrame := by
  intro i s t h
  obtain ⟨-, rfl⟩ := exec_eq_next_iff.mp h
  exact ⟨effect_a i s, effect_x _ _ s, effect_y _ _ s, effect_sp _ _ s, effect_cfg _ _ s, effect_run _ _ s⟩

theorem effect_p_c (op : Op) (o : Operand) (s : State) : (effect op o s).p.c = s.p.c ∨
    op ∈ [.adc, .sbc, .cmp, .cpx, .cpy, .asl, .lsr, .rol, .ror, .clc, .sec, .plp, .rti] := by
  cases op with
  | adc | sbc | cmp | cpx | cpy | asl | lsr | rol | ror | clc | sec | plp | rti => exact .inr (by decide)
  | pha | php | jsr | brk => exact .inl (by simp [effect, afterPushes])
  | _ => exact .inl rfl

theorem effect_p_i (op : Op) (o : Operand) (s : State) :
    (effect op o s).p.i = s.p.i ∨ op ∈ [.sei, .cli, .brk, .plp, .rti] := by
  cases op with
  | sei | cli | brk | plp | rti => exact .inr (by decide)
  | pha | php | jsr => exact .inl (by simp [effect, afterPushes])
  | _ => exact .inl rfl

theorem effect_p_d (op : Op) (o : Operand) (s : State) : (effect op o s).p.d = s.p.d ∨ op ∈ [.sed, .cld, .plp, .rti] := by
  cases op with
  | sed | cld | plp | rti => exact .inr (by decide)
  | pha | php | jsr | brk => exact .inl (by simp [effect, afterPushes])
  | _ => exact .inl rfl

theorem effect_p_b (op : Op) (o : Operand) (s : State) : (effect op o s).p.b = s.p.b ∨ op ∈ [.plp, .rti] := by
  cases op with
  | plp | rti => exact .inr (by decide)
  | pha | php | jsr | brk => exact .inl (by simp [effect, afterPushes])
  | _ => exact .inl rfl

theorem effect_p_u (op : Op) (o : Operand) (s : State) : (effect op o s).p.u = s.p.u := by
  cases op with
  | pha | php | jsr | brk => simp [effect, afterPushes]
  | _ => rfl

theorem effect_p_v (op : Op) (o : Operand) (s : State) :
    (effect op o s).p.v = s.p.v ∨ op ∈ [.adc, .sbc, .bit, .clv, .plp, .rti] := by
  cases op with
  | adc | sbc | bit | clv | plp | rti => exact .inr (by decide)
  | pha | php | jsr | brk => exact .inl (by simp [effect, afterPushes])
  | _ => exact .inl rfl

/-- Z and N have the same writers. -/
theorem effect_p_zn (op : Op) (o : Operand) (s : State) :
    (effect op o s).p.z = s.p.z ∧ (effect op o s).p.n = s.p.n ∨ op ∈ zWriters := by
  cases op with
  | pha | php | jsr | brk => exact .inl (by simp [effect, afterPushes])
  | sta | stx | sty | bcc | bcs | beq | bne | bmi | bpl | bvc | bvs | jmp | rts | txs | clc | sec | cli | sei | cld | sed | clv
  | nop => exact .inl ⟨rfl, rfl⟩
  | _ => exact .inr (by decide)

/-- Settles O48: an instruction that completes comes to its effect, whose flags are compared mnemonic by mnemonic. -/
theorem flagFrame : Obligations.FlagFrame := by
  intro i s t h
  obtain ⟨-, rfl⟩ := exec_eq_next_iff.mp h
  have hzn := effect_p_zn i.op i.operand s
  exact ⟨effect_p_c _ _ s, hzn.imp_left And.left, effect_p_i _ _ s, effect_p_d _ _ s, effect_p_b _ _ s, effect_p_u _ _ s,
    effect_p_v _ _ s, hzn.imp_left And.right⟩

theorem effect_pc {op : Op} (o : Operand) (s : State) (h : op ∉ controlOps) : (effect op o s).pc = s.pc + lengthOf o := by
  cases op with
  | bcc | bcs | beq | bne | bmi | bpl | bvc | bvs | jmp | jsr | rts | brk | rti => exact absurd (by decide) h
  | asl | lsr | rol | ror => exact State.writeLoc_pc _ _ _
  | pha | php => simp [effect, afterPushes]
  | _ => rfl

/-- Settles O49: the effect of such an instruction leaves PC past its operand, which is the length of its encoding. -/
theorem pcPastInstruction : Obligations.PcPastInstruction := by
  intro i s t h hop
  obtain ⟨-, rfl⟩ := exec_eq_next_iff.mp h
  rw [effect_pc i.operand s hop, lengthOf_eq, length_encode, Instr.mode]

/-- The mnemonics that neither store nor push leave memory. -/
theorem effect_mem {op : Op} (o : Operand) (s : State) (hpush : op ∉ pushingOps) (hstore : op ∉ storingOps) :
    (effect op o s).mem = s.mem := by
  cases op with
  | pha | php | jsr | brk => exact absurd (by decide) hpush
  | sta | stx | sty | inc | dec | asl | lsr | rol | ror => exact absurd (by decide) hstore
  | _ => rfl

/-- Only the shifts and rotates have an accumulator form, which stores to A. -/
theorem effect_mem_accumulator {op : Op} (s : State) (hmode : .accumulator ∈ op.modes) :
    (effect op .accumulator s).mem = s.mem := by
  cases op with
  | asl | lsr | rol | ror => rfl
  | _ => exact absurd hmode (by decide)

theorem operand_eq_accumulator {i : Instr} (h : i.mode = .accumulator) : i.operand = .accumulator := by
  unfold Instr.mode at h
  generalize i.operand = o at h
  cases o with
  | accumulator => rfl
  | _ => cases h

/-- Settles O50: the effects of these mnemonics leave memory, and so do the accumulator forms. -/
theorem nonStoringMemoryFrame : Obligations.NonStoringMemoryFrame := by
  intro i s t h hpush hstore b
  obtain ⟨-, rfl⟩ := exec_eq_next_iff.mp h
  rcases hstore with hstore | hmode
  · rw [effect_mem i.operand s hpush hstore]
  · rw [operand_eq_accumulator hmode, effect_mem_accumulator s (hmode ▸ mode_mem_modes i)]

/-- A store goes to the effective address. -/
theorem effect_mem_of_storing {op : Op} {o : Operand} {s : State} {ea : Word} (hop : op ∈ storingOps)
    (hea : effectiveAddress o s = some ea) : ∃ v, (effect op o s).mem = memWrite s.mem ea v := by
  have haddress : addressOf o s = ea := by rw [addressOf, hea]; rfl
  subst haddress
  cases op with
  | sta | stx | sty | inc | dec => exact ⟨_, rfl⟩
  | asl | lsr | rol | ror =>
    simp only [effect, shifted, locOf_of_effectiveAddress hea]
    exact ⟨_, rfl⟩
  | _ => exact absurd hop (by decide)

/-- Pushes leave the bytes of memory that are not at the stack pointers they come to. -/
theorem memRead_pushedAll {s : State} {vs : List Byte} {b : Word} (hwf : s.mem.wf = true)
    (hb : ∀ k < vs.length, b ≠ stackAddr s.cfg (s.sp - BitVec.ofNat 8 k)) :
    memRead (pushedAll s vs).mem b = memRead s.mem b := by
  induction vs generalizing s with
  | nil => rfl
  | cons v vs ih =>
    have hfirst : b ≠ stackAddr s.cfg s.sp := by simpa using hb 0 (by simp)
    rw [pushedAll, ih (State.pushed_wf v hwf), State.pushed_mem, memRead_memWrite hwf, if_neg hfirst]
    intro k hk
    have hlater := hb (k + 1) (by simpa using hk)
    rw [State.pushed_sp, State.pushed_cfg]
    rwa [show s.sp - 1 - BitVec.ofNat 8 k = s.sp - BitVec.ofNat 8 (k + 1) by bv_omega]

theorem effect_mem_of_pushing {op : Op} (o : Operand) (s : State) (h : op ∈ pushingOps) :
    (effect op o s).mem = (pushedAll (s.past o) (pushedBytes op s)).mem := by
  cases op with
  | pha | php | jsr | brk => rfl
  | _ => exact absurd h (by decide)

theorem memRead_effect_of_pushing {op : Op} {o : Operand} {s : State} {b : Word} (hop : op ∈ pushingOps) (hwf : s.mem.wf = true)
    (hb : ∀ k < pushCount op, b ≠ stackAddr s.cfg (s.sp - BitVec.ofNat 8 k)) :
    memRead (effect op o s).mem b = memRead s.mem b := by
  rw [effect_mem_of_pushing o s hop]
  refine memRead_pushedAll (s := s.past o) hwf ?_
  rwa [length_pushedBytes]

/-- Settles O51: a store changes the byte at the effective address, and a push the bytes at the stack pointers that it comes to. -/
theorem storingMemoryFrame : Obligations.StoringMemoryFrame := by
  intro i s t hwf h b
  obtain ⟨-, rfl⟩ := exec_eq_next_iff.mp h
  refine ⟨fun hop ea hea hb => ?store, fun hop hb => ?one, fun hop hb hb1 => ?two, fun hop hb hb1 hb2 => ?three⟩
  case store =>
    obtain ⟨v, hmem⟩ := effect_mem_of_storing hop hea
    rw [hmem, memRead_memWrite hwf, if_neg hb]
  case one =>
    have hcount : ∀ op ∈ [Op.pha, .php], op ∈ pushingOps ∧ pushCount op = 1 := by decide
    refine memRead_effect_of_pushing (hcount _ hop).1 hwf fun k hk => ?_
    rw [(hcount _ hop).2] at hk
    interval_cases k
    simpa using hb
  case two =>
    refine memRead_effect_of_pushing (by rw [hop]; decide) hwf fun k hk => ?_
    rw [hop, pushCount] at hk
    interval_cases k
    · simpa using hb
    · exact hb1
  case three =>
    refine memRead_effect_of_pushing (by rw [hop]; decide) hwf fun k hk => ?_
    rw [hop, pushCount] at hk
    interval_cases k
    · simpa using hb
    · exact hb1
    · exact hb2

/-- Every instruction keeps the canonical form of memory. -/
theorem effect_mem_wf (op : Op) (o : Operand) {s : State} (h : s.mem.wf = true) : (effect op o s).mem.wf = true := by
  cases op with
  | sta | stx | sty | inc | dec => exact memWrite_wf _ _ h
  | asl | lsr | rol | ror => exact State.writeLoc_wf _ _ h
  | pha | php => exact memWrite_wf _ _ h
  | jsr => exact memWrite_wf _ _ (memWrite_wf _ _ h)
  | brk => exact memWrite_wf _ _ (memWrite_wf _ _ (memWrite_wf _ _ h))
  | _ => exact h

/-- Every instruction keeps the invariant. -/
theorem inv_effect (op : Op) (o : Operand) {s : State} (h : Inv s) : Inv (effect op o s) := by
  obtain ⟨hwf, hu, hrun⟩ := h
  exact ⟨effect_mem_wf op o hwf, (effect_p_u op o s).trans hu, (effect_run op o s).trans hrun⟩

end Sys2Proof.Proofs

/-! PROOFS. The step and the run (70_reset_and_hazards.md). -/

namespace Sys2Proof.Proofs

open Sys2Proof.Machine Sys2Proof.Statements Sys2Proof.Safety

theorem faultOf_record (r : FaultRecord) (s : State) : (faultOf r s).record = r := by
  rcases r with ⟨_ | ⟨_ | _, _⟩ | _, _, _⟩ <;> rfl

theorem faultOf_left (r : FaultRecord) (s : State) : (faultOf r s).left = s := by
  rcases r with ⟨_ | ⟨_ | _, _⟩ | _, _, _⟩ <;> rfl

/-- A step of a halted machine. -/
theorem step_of_halted {s : State} {r : FaultRecord} (h : s.run = .halted r) : step s = .fault (faultOf r s) := by
  rw [step, h]

/-- A step of a running machine whose bytes at PC decode. -/
theorem step_of_decode {s : State} {i : Instr} {rest : List Byte} (hrun : s.run = .running)
    (hdecode : decode (bytesAt s.mem s.pc) = .ok (i, rest)) : step s = exec i s := by
  rw [step, hrun, hdecode]

/-- A step of a running machine whose bytes at PC do not. -/
theorem step_of_decode_error {s : State} {e : Reject} (hrun : s.run = .running)
    (hdecode : decode (bytesAt s.mem s.pc) = .error e) : step s = decodeFault s := by
  rw [step, hrun, hdecode]

/-- Settles O6: the step raises the decode failure before it changes anything. -/
theorem decodeFailureChangesNothing : Obligations.DecodeFailureChangesNothing := by
  intro s hrun hnone
  rw [step_of_decodeOpcode_none hrun hnone]
  exact raise_faultsAt _ _ _

/-- The mnemonic, the mode and the operand of an instruction agree. -/
theorem wf_eq_true (i : Instr) : i.wf = true := by
  have hsize : ∀ o : Operand, o.size = o.mode.operandCount := by
    intro o
    cases o <;> rfl
  simpa [Instr.wf, wellFormedParts, hsize, Instr.mode] using mode_mem_modes i

/-- Settles O7: the three bytes are those that the step decodes. -/
theorem stepRunsDecodedInstruction : Obligations.StepRunsDecodedInstruction :=
  fun _ i _ hrun hdecode => ⟨wf_eq_true i, step_of_decode hrun hdecode⟩

/-- The bytes from an address on, with 16-bit wrap. -/
theorem bytesAt_getElem? (m : Memory) (addr : Word) {k : Nat} (hk : k < 3) :
    (bytesAt m addr)[k]? = some (memRead m (addr + BitVec.ofNat 16 k)) := by
  interval_cases k
  · simp [bytesAt]
  · rfl
  · rfl

theorem length_encode_le (i : Instr) : (encode i).length ≤ 3 := by
  have hcount : i.mode.operandCount ≤ 2 := by
    cases i.mode <;> decide
  rw [length_encode]
  omega

/-- Settles O8: the three bytes at PC begin with the encoding, which decodes to the instruction whatever follows it. -/
theorem storedEncodingRuns : Obligations.StoredEncodingRuns := by
  intro i s hrun hstored
  have hbegins : encode i <+: bytesAt s.mem s.pc := by
    rw [List.prefix_iff_getElem?]
    intro k hk
    rw [bytesAt_getElem? _ _ (hk.trans_le (length_encode_le i)), hstored k _ (List.getElem?_eq_getElem hk)]
  obtain ⟨rest, hbytes⟩ := hbegins
  exact step_of_decode hrun (hbytes ▸ decodeOfEncode i rest)

/-- Settles O9: the STA leaves PC at the byte it stored, which is the whole encoding of the instruction. -/
theorem storeIntoCodeIsFetched : Obligations.StoreIntoCodeIsFetched := by
  intro s t i hrun hwf hencode h
  obtain ⟨-, rfl⟩ := exec_eq_next_iff.mp h
  refine storedEncodingRuns i _ hrun fun k b hb => ?_
  rw [hencode] at hb
  cases k with
  | zero =>
    obtain rfl : s.a = b := Option.some.inj hb
    show memRead (memWrite s.mem (s.pc + 3) s.a) (s.pc + 3 + 0) = s.a
    rw [add_zero, memRead_memWrite hwf, if_pos rfl]
  | succ k => cases hb

/-- A step is of a halted machine, of bytes that decode, or of bytes that do not. -/
theorem step_cases (s : State) :
    (∃ r, s.run = .halted r ∧ step s = .fault (faultOf r s)) ∨
    (s.run = .running ∧ ∃ i rest, decode (bytesAt s.mem s.pc) = .ok (i, rest) ∧ step s = exec i s) ∨
    (s.run = .running ∧ ∃ e, decode (bytesAt s.mem s.pc) = .error e ∧ step s = decodeFault s) := by
  cases hrun : s.run with
  | halted r => exact .inl ⟨r, rfl, step_of_halted hrun⟩
  | running =>
    cases hdecode : decode (bytesAt s.mem s.pc) with
    | ok d => exact .inr (.inl ⟨rfl, d.1, d.2, rfl, step_of_decode hrun hdecode⟩)
    | error e => exact .inr (.inr ⟨rfl, e, rfl, step_of_decode_error hrun hdecode⟩)

/-- A step completes, of a machine that was running and is, or faults and leaves the machine halted with its record. -/
theorem step_next_or_fault (s : State) :
    (∃ t, step s = .next t ∧ s.run = .running ∧ t.run = .running) ∨
    ∃ f, step s = .fault f ∧ f.left.run = .halted f.record := by
  obtain ⟨r, hrun, hstep⟩ | ⟨hrun, i, rest, -, hstep⟩ | ⟨-, e, -, hstep⟩ := step_cases s
  · exact .inr ⟨_, hstep, by rw [faultOf_left, faultOf_record, hrun]⟩
  · rw [hstep]
    obtain ⟨t, ht⟩ | hfault := exec_next_or_fault i s
    · obtain ⟨-, rfl⟩ := exec_eq_next_iff.mp ht
      exact .inl ⟨_, ht, hrun, (effect_run _ _ s).trans hrun⟩
    · exact .inr hfault
  · obtain ⟨f, hf, hrecord, hleft⟩ := raise_eq (.decodeFailure (memRead s.mem s.pc)) s.pc s
    exact .inr ⟨f, hstep.trans hf, by rw [hleft, hrecord, State.setRun_run]⟩

/-- A completed step executes an instruction. -/
theorem exec_of_step_eq_next {s t : State} (h : step s = .next t) : ∃ i, exec i s = .next t := by
  obtain ⟨r, -, hstep⟩ | ⟨-, i, rest, -, hstep⟩ | ⟨-, e, -, hstep⟩ := step_cases s
  · rw [hstep] at h; cases h
  · exact ⟨i, hstep ▸ h⟩
  · exact absurd (hstep ▸ h) raise_ne_next

/-- A run of a halted machine (R265). -/
theorem runLimit_of_halted {s : State} {r : FaultRecord} (h : s.run = .halted r) (n : Nat) :
    runLimit n s = (.faulted r, s) := by
  cases n with
  | zero => rw [runLimit, h]
  | succ n => rw [runLimit, step_of_halted h]; simp only [faultOf_record, faultOf_left]

/-- Settles O10: a faulting step halts, and a halted machine gives its record whatever the limit. -/
theorem faultHaltsForGood : Obligations.FaultHaltsForGood := by
  refine ⟨fun s f h => ?halts, fun s r h =>
    ⟨⟨faultOf r s, step_of_halted h, faultOf_record r s, faultOf_left r s⟩, runLimit_of_halted h⟩⟩
  case halts =>
    obtain ⟨t, ht, -⟩ | ⟨f', hf', hleft⟩ := step_next_or_fault s
    · rw [ht] at h; cases h
    · obtain rfl := Host.Outcome.fault.inj (hf'.symm.trans h)
      exact hleft

/-- A run of no steps, and a run by its first step. -/
theorem runLimit_zero_of_running {s : State} (h : s.run = .running) : runLimit 0 s = (.limitReached, s) := by
  rw [runLimit, h]

theorem runLimit_succ_of_next {n : Nat} {s t : State} (h : step s = .next t) : runLimit (n + 1) s = runLimit n t := by
  rw [runLimit, h]

theorem runLimit_succ_of_fault {n : Nat} {s : State} {f : Fault} (h : step s = .fault f) :
    runLimit (n + 1) s = (.faulted f.record, f.left) := by
  rw [runLimit, h]

/-- A run ends at its limit exactly after as many completed steps. -/
theorem runLimit_eq_limitReached_iff {n : Nat} {s t : State} :
    runLimit n s = (.limitReached, t) ↔ s.run = .running ∧ StepsTo n s t := by
  induction n generalizing s with
  | zero =>
    cases hrun : s.run with
    | running => simp [runLimit_zero_of_running hrun, StepsTo]
    | halted r => simp [runLimit_of_halted hrun]
  | succ n ih =>
    obtain ⟨u, hu, hrun, hrun'⟩ | ⟨f, hf, -⟩ := step_next_or_fault s
    · simp [runLimit_succ_of_next hu, ih, hrun, hrun', StepsTo, hu]
    · simp [runLimit_succ_of_fault hf, StepsTo, hf]

/-- A run of a running machine ends with a fault exactly when a step faults before the limit. -/
theorem runLimit_eq_faulted_iff {n : Nat} {s t : State} {r : FaultRecord} (hrun : s.run = .running) :
    runLimit n s = (.faulted r, t) ↔
      ∃ k u f, k < n ∧ StepsTo k s u ∧ step u = .fault f ∧ f.record = r ∧ f.left = t := by
  induction n generalizing s with
  | zero => simp [runLimit_zero_of_running hrun]
  | succ n ih =>
    obtain ⟨v, hv, -, hrun'⟩ | ⟨f, hf, -⟩ := step_next_or_fault s
    · rw [runLimit_succ_of_next hv, ih hrun']
      constructor
      · rintro ⟨k, u, f, hk, hsteps, hfault⟩
        exact ⟨k + 1, u, f, Nat.succ_lt_succ hk, ⟨v, hv, hsteps⟩, hfault⟩
      · rintro ⟨k, u, f, hk, hsteps, hfault⟩
        cases k with
        | zero =>
          obtain rfl : s = u := hsteps
          rw [hv] at hfault
          cases hfault.1
        | succ k =>
          obtain ⟨v', hv', hsteps⟩ := hsteps
          obtain rfl := Host.Outcome.next.inj (hv.symm.trans hv')
          exact ⟨k, u, f, Nat.lt_of_succ_lt_succ hk, hsteps, hfault⟩
    · rw [runLimit_succ_of_fault hf]
      constructor
      · intro h
        cases h
        exact ⟨0, s, f, Nat.succ_pos n, rfl, hf, rfl, rfl⟩
      · rintro ⟨k, u, f', hk, hsteps, hfault, rfl, rfl⟩
        cases k with
        | zero =>
          obtain rfl : s = u := hsteps
          rw [Host.Outcome.fault.inj (hf.symm.trans hfault)]
        | succ k =>
          obtain ⟨v, hv, -⟩ := hsteps
          rw [hf] at hv
          cases hv

/-- Settles O11: a halted machine gives its record, and a running one goes by its steps. -/
theorem runLimitMeaning : Obligations.RunLimitMeaning := by
  refine ⟨fun n s t => runLimit_eq_limitReached_iff, fun n s r t => ?_⟩
  cases hrun : s.run with
  | halted r' => simp [runLimit_of_halted hrun, eq_comm]
  | running => simp [runLimit_eq_faulted_iff hrun]

/-- Settles O12: by induction on the steps of the first run. -/
theorem splitRunIsOneRun : Obligations.SplitRunIsOneRun := by
  intro m n s
  induction m generalizing s with
  | zero =>
    cases hrun : s.run with
    | running => simp [runLimit_zero_of_running hrun]
    | halted r => simp [runLimit_of_halted hrun]
  | succ m ih =>
    rw [Nat.succ_add]
    obtain ⟨t, ht, -⟩ | ⟨f, hf, -⟩ := step_next_or_fault s
    · rw [runLimit_succ_of_next ht, runLimit_succ_of_next ht, ih]
    · simp [runLimit_succ_of_fault hf]

/-- Settles O14: instructions and steps complete or fault, and so a run ends at its limit or at a fault. -/
theorem nothingIsRefused : Obligations.NothingIsRefused := by
  refine ⟨exec_ne_refused, fun s r => ?step, fun n s => ?run⟩
  case step =>
    obtain ⟨t, ht, -⟩ | ⟨f, hf, -⟩ := step_next_or_fault s
    · rw [ht]; nofun
    · rw [hf]; nofun
  case run =>
    induction n generalizing s with
    | zero =>
      cases hrun : s.run with
      | running => exact .inl (by rw [runLimit_zero_of_running hrun])
      | halted r => exact .inr ⟨r, by rw [runLimit_of_halted hrun]⟩
    | succ n ih =>
      obtain ⟨t, ht, -⟩ | ⟨f, hf, -⟩ := step_next_or_fault s
      · rw [runLimit_succ_of_next ht]
        exact ih t
      · exact .inr ⟨f.record, by rw [runLimit_succ_of_fault hf]⟩

/-- A run that faulted ends so under every higher limit. -/
theorem runLimit_faulted_of_le {m n : Nat} {s t : State} {r : FaultRecord} (h : runLimit m s = (.faulted r, t)) (hle : m ≤ n) :
    runLimit n s = (.faulted r, t) := by
  obtain ⟨k, rfl⟩ := Nat.exists_eq_add_of_le hle
  rw [splitRunIsOneRun, if_neg (by rw [h]; nofun), h]

/-- Settles O13: of two fault ends, the one under the lower limit is also that under the higher. -/
theorem unlimitedRunStopsOnlyByFault : Obligations.UnlimitedRunStopsOnlyByFault := by
  refine fun s => ⟨fun r t r' t' ⟨m, hm⟩ ⟨n, hn⟩ => ?unique, fun hnone n => ?_, fun hlimits ⟨r, t, n, hn⟩ => ?_⟩
  case unique =>
    have hends := (runLimit_faulted_of_le hm (Nat.le_max_left m n)).symm.trans (runLimit_faulted_of_le hn (Nat.le_max_right m n))
    cases hends
    exact ⟨rfl, rfl⟩
  · obtain hlimit | ⟨r, hfault⟩ := nothingIsRefused.2.2 n s
    · exact ⟨(runLimit n s).2, Prod.ext hlimit rfl⟩
    · exact absurd ⟨r, (runLimit n s).2, n, Prod.ext hfault rfl⟩ hnone
  · obtain ⟨u, hu⟩ := hlimits n
    rw [hn] at hu
    cases hu

/-- What completed steps keep holds at the end of them. -/
theorem keeps_of_stepsTo {P : State → Prop} (hstep : ∀ s t, P s → step s = .next t → P t) {n : Nat} {s t : State} (hs : P s)
    (h : StepsTo n s t) : P t := by
  induction n generalizing s with
  | zero => exact h ▸ hs
  | succ n ih =>
    obtain ⟨u, hu, hsteps⟩ := h
    exact ih (hstep s u hs hu) hsteps

/-- Settles O53: the effect of an instruction keeps the invariant, a completed step executes an instruction, and a run with no fault
is completed steps. -/
theorem stepKeepsInvariant : Obligations.StepKeepsInvariant := by
  have hexec : ∀ (i : Instr) (s t : State), Inv s → exec i s = .next t → Inv t := by
    intro i s t hinv h
    obtain ⟨-, rfl⟩ := exec_eq_next_iff.mp h
    exact inv_effect i.op i.operand hinv
  have hstep : ∀ s t : State, Inv s → step s = .next t → Inv t := by
    intro s t hinv h
    obtain ⟨i, hi⟩ := exec_of_step_eq_next h
    exact hexec i s t hinv hi
  refine ⟨hexec, hstep, fun n s t hinv hclean => ?_⟩
  exact keeps_of_stepsTo hstep hinv (runLimit_eq_limitReached_iff.mp hclean).2

/-- The start address in each mode (R261). -/
theorem startPc_of_fixedStart {cfg : Config} (image : Memory) (h : cfg.startMode = .fixedStart) :
    startPc cfg image = cfg.codeStart := by
  rw [startPc, h]

theorem startPc_of_vector {cfg : Config} (image : Memory) (h : cfg.startMode = .vector) :
    startPc cfg image = memReadWord image cfg.resetVector := by
  rw [startPc, h]

/-- Settles O54: the values stand in the construction, and PC in its start address. -/
theorem constructionValues : Obligations.ConstructionValues :=
  fun _ image hwf => ⟨rfl, rfl, rfl, rfl, show pByte State.reset.p = 0 by decide, rfl, rfl, fun _ => rfl,
    startPc_of_fixedStart image, startPc_of_vector image, ⟨hwf, rfl, rfl⟩, rfl⟩

end Sys2Proof.Proofs

/-! PROOFS. The access sequence of a step (20_memory.md R44) replayed from the memory before it. -/

namespace Sys2Proof.Proofs

open Sys2Proof.Machine Sys2Proof.Statements

/-- Accesses that only read a memory. -/
def ReadsOf (m : Memory) (accesses : List Access) : Prop := ∀ x ∈ accesses, ∃ addr, x = readOf m addr

/-- Reads of a memory can be replayed on it, and leave it. -/
theorem replay_of_readsOf {m : Memory} {accesses : List Access} (h : ReadsOf m accesses) : replay accesses m = some m := by
  induction accesses with
  | nil => rfl
  | cons x rest ih =>
    obtain ⟨⟨addr, rfl⟩, hrest⟩ := List.forall_mem_cons.mp h
    rw [readOf, replay, if_pos rfl]
    exact ih hrest

theorem replay_append (accesses accesses' : List Access) (m : Memory) :
    replay (accesses ++ accesses') m = (replay accesses m).bind (replay accesses') := by
  induction accesses generalizing m with
  | nil => rfl
  | cons x rest ih =>
    cases x with
    | read addr v => by_cases hread : memRead m addr = v <;> simp [replay, hread, ih]
    | write addr v => simp [replay, ih]

/-- The fetches only read. -/
theorem readsOf_fetchAccesses (i : Instr) (s : State) : ReadsOf s.mem (fetchAccesses i s) := by
  unfold fetchAccesses ReadsOf
  split <;> simp

/-- And so do the pointer reads. -/
theorem readsOf_pointerAccesses (o : Operand) (s : State) : ReadsOf s.mem (pointerAccesses o s) := by
  unfold pointerAccesses ReadsOf
  split <;> simp

theorem readsOf_valueAccesses (o : Operand) (s : State) : ReadsOf s.mem (valueAccesses o s) := by
  unfold valueAccesses ReadsOf
  split <;> simp

theorem readsOf_popAccesses (cfg : Config) (m : Memory) (sp : Byte) (n : Nat) : ReadsOf m (popAccesses cfg m sp n) := by
  induction n generalizing sp with
  | zero => exact List.forall_mem_nil _
  | succ n ih =>
    rw [popAccesses]
    split
    · exact List.forall_mem_nil _
    · exact List.forall_mem_cons.mpr ⟨⟨_, rfl⟩, ih (sp + 1)⟩

/-- The data accesses of an instruction that neither pushes nor stores only read. -/
theorem readsOf_dataAccesses {i : Instr} (s : State) (hpush : i.op ∉ pushingOps) (hstore : i.op ∉ storingOps) :
    ReadsOf s.mem (dataAccesses i s) := by
  unfold dataAccesses
  generalize i.op = op at *
  cases op with
  | pha | php | jsr | brk => exact absurd (by decide) hpush
  | sta | stx | sty | inc | dec | asl | lsr | rol | ror => exact absurd (by decide) hstore
  | lda | ldx | ldy | adc | sbc | and | ora | eor | bit | cmp | cpx | cpy => exact readsOf_valueAccesses _ _
  | pla | plp | rts | rti => exact readsOf_popAccesses _ _ _ _
  | _ => exact List.forall_mem_nil _

/-- A storing instruction on an operand without an effective address is a shift or rotate of the accumulator. -/
theorem mode_eq_accumulator_of_storing {i : Instr} (hop : i.op ∈ storingOps) (hmode : i.mode ∈ addresslessModes) :
    i.mode = .accumulator := by
  have hmodes : ∀ op ∈ storingOps, ∀ m ∈ op.modes, m ∈ addresslessModes → m = .accumulator := by decide
  exact hmodes _ hop _ (mode_mem_modes i) hmode

/-- A store is replayed as the write at the effective address. -/
theorem replay_storeAccesses {o : Operand} {s : State} {ea : Word} (hea : effectiveAddress o s = some ea) (v : Byte) :
    replay (storeAccesses v o s) s.mem = some (memWrite s.mem (addressOf o s) v) := by
  simp [storeAccesses, addressOf, hea, replay]

/-- A read and a write of one byte are replayed as the write. -/
theorem replay_modifyAccesses {o : Operand} {s : State} {ea : Word} (hea : effectiveAddress o s = some ea) (f : Byte → Byte) :
    replay (modifyAccesses f o s) s.mem = some (memWrite s.mem ea (f (memRead s.mem ea))) := by
  simp [modifyAccesses, hea, readOf, replay]

/-- A shift or rotate of a byte in memory stores there. -/
theorem mem_shifted {f : Byte → Bool → Shifted} {o : Operand} {s : State} {ea : Word} (hea : effectiveAddress o s = some ea) :
    (shifted f o s).mem = memWrite s.mem ea (f (memRead s.mem ea) s.p.c).r := by
  rw [shifted, locOf_of_effectiveAddress hea]
  rfl

/-- The data accesses of a storing instruction write what its effect has at the effective address. -/
theorem replay_dataAccesses_of_storing {i : Instr} (s : State) (hop : i.op ∈ storingOps) :
    replay (dataAccesses i s) s.mem = some (effect i.op i.operand s).mem := by
  by_cases hmode : i.mode ∈ addresslessModes
  case pos =>
    have haccumulator := mode_eq_accumulator_of_storing hop hmode
    have hlisted : .accumulator ∈ i.op.modes := haccumulator ▸ mode_mem_modes i
    unfold dataAccesses
    rw [operand_eq_accumulator haccumulator, effect_mem_accumulator s hlisted]
    generalize i.op = op at *
    cases op with
    | asl | lsr | rol | ror => rfl
    | _ => exact absurd hlisted (by decide)
  case neg =>
    obtain ⟨ea, hea⟩ := (exists_effectiveAddress_iff i.operand s).mpr hmode
    have haddress : addressOf i.operand s = ea := by rw [addressOf, hea]; rfl
    have hvalue : byteOf i.operand s = memRead s.mem ea := by rw [byteOf, operandValue_of_effectiveAddress hea]; rfl
    unfold dataAccesses
    generalize i.op = op at *
    cases op with
    | sta | stx | sty => exact replay_storeAccesses hea _
    | inc | dec =>
      rw [effect, haddress, hvalue]
      exact replay_modifyAccesses hea _
    | asl | lsr | rol | ror =>
      rw [effect, mem_shifted hea]
      exact replay_modifyAccesses hea _
    | _ => exact absurd hop (by decide)

/-- The memory of the state that an outcome comes to, or that its fault leaves. -/
def Leaves (m : Memory) : Out → Prop
  | .next t => t.mem = m
  | .fault f => f.left.mem = m
  | .refused _ => False

/-- A fault leaves the memory of the state it is raised in. -/
theorem leaves_raise (cause : FaultCause) (pc0 : Word) (s : State) : Leaves s.mem (raise cause pc0 s) := by
  obtain ⟨f, hf, -, hleft⟩ := raise_eq cause pc0 s
  rw [hf, Leaves, hleft, State.setRun_mem]

/-- A faulting push makes no access, and an admitted one its write. -/
theorem pushAccesses_of_faults {s : State} (v : Byte) (vs : List Byte) (h : pushFaults s = true) :
    pushAccesses s.cfg s.sp (v :: vs) = [] := if_pos h

theorem pushAccesses_of_admitted {s : State} {v : Byte} (vs : List Byte) (h : pushFaults s = false) :
    pushAccesses s.cfg s.sp (v :: vs) = .write (stackAddr s.cfg s.sp) v :: pushAccesses s.cfg (s.sp - 1) vs :=
  if_neg (Bool.eq_false_iff.mp h)

/-- The push accesses write what the pushes do, up to the one that faults. -/
theorem replay_pushAccesses {pc0 : Word} {vs : List Byte} {s : State} {next : State → Out} (hnext : ∀ t, Leaves t.mem (next t)) :
    ∃ m, replay (pushAccesses s.cfg s.sp vs) s.mem = some m ∧ Leaves m (pushBytes pc0 vs s next) := by
  induction vs generalizing s with
  | nil => exact ⟨s.mem, rfl, hnext s⟩
  | cons v vs ih =>
    by_cases hfaults : pushFaults s = true
    · refine ⟨s.mem, ?_, ?_⟩
      · rw [pushAccesses_of_faults v vs hfaults, replay]
      · rw [pushBytes, pushByte_of_faults hfaults]
        exact leaves_raise _ _ _
    · obtain ⟨m, hreplay, hleaves⟩ := ih (s := s.pushed v)
      refine ⟨m, ?_, ?_⟩
      · rw [pushAccesses_of_admitted vs (Bool.eq_false_iff.mpr hfaults), replay]
        exact hreplay
      · rwa [pushBytes, pushByte_of_admitted (Bool.eq_false_iff.mpr hfaults)]

/-- Pops leave memory. -/
theorem leaves_popBytes {pc0 : Word} {fs : List (State → State)} {s : State} (hkeeps : ∀ f ∈ fs, ∀ t, (f t).mem = t.mem) :
    Leaves s.mem (popBytes pc0 fs s) := by
  induction fs generalizing s with
  | nil => exact rfl
  | cons f fs ih =>
    obtain ⟨hf, hfs⟩ := List.forall_mem_cons.mp hkeeps
    by_cases hfaults : popFaults s = true
    · rw [popBytes, popByte_of_faults hfaults]
      exact leaves_raise _ _ _
    · rw [popBytes, popByte_of_admitted (Bool.eq_false_iff.mpr hfaults)]
      exact (hf s.popped).symm ▸ ih hfs

theorem popSteps_mem (op : Op) : ∀ f ∈ popSteps op, ∀ t, (f t).mem = t.mem := by
  cases op <;> simp [popSteps]

/-- What follows the pushes leaves memory. -/
theorem afterPushes_mem (op : Op) (o : Operand) (t : State) : (afterPushes op o t).mem = t.mem := by
  cases op <;> rfl

/-- The vector reads of BRK leave the memory that its pushes leave. -/
theorem replay_interruptAccesses (s : State) :
    replay (interruptAccesses s) s.mem = replay (pushAccesses s.cfg s.sp (pushedBytes .brk s)) s.mem := by
  unfold interruptAccesses
  simp only [pushedBytes]
  split
  next m _ hpushes =>
    rw [replay_append, hpushes]
    exact replay_of_readsOf (by simp [ReadsOf])
  next => rfl

/-- The data accesses of a pushing instruction are its pushes. -/
theorem replay_dataAccesses_of_pushing {i : Instr} (s : State) (hop : i.op ∈ pushingOps) :
    replay (dataAccesses i s) s.mem = replay (pushAccesses s.cfg s.sp (pushedBytes i.op s)) s.mem := by
  unfold dataAccesses
  generalize i.op = op at *
  cases op with
  | pha | php | jsr => rfl
  | brk => exact replay_interruptAccesses s
  | _ => exact absurd hop (by decide)

/-- The data accesses of an instruction leave the memory that it leaves. -/
theorem replay_dataAccesses (i : Instr) (s : State) : ∃ m, replay (dataAccesses i s) s.mem = some m ∧ Leaves m (exec i s) := by
  by_cases hpush : i.op ∈ pushingOps
  · rw [replay_dataAccesses_of_pushing s hpush, exec_eq_pushBytes s hpush]
    exact replay_pushAccesses (s := s.past i.operand) (afterPushes_mem i.op i.operand)
  by_cases hstore : i.op ∈ storingOps
  · have hstack : i.op ∉ pushingOps ++ poppingOps := by
      have hdisjoint : ∀ op ∈ storingOps, op ∉ pushingOps ++ poppingOps := by decide
      exact hdisjoint _ hstore
    rw [replay_dataAccesses_of_storing s hstore, exec_eq_next_of_not_stack s hstack]
    exact ⟨_, rfl, rfl⟩
  refine ⟨s.mem, replay_of_readsOf (readsOf_dataAccesses s hpush hstore), ?_⟩
  by_cases hpop : i.op ∈ poppingOps
  · rw [exec_eq_popBytes s hpop]
    exact leaves_popBytes (s := s.past i.operand) (popSteps_mem i.op)
  · rw [exec_eq_next_of_not_stack s (by simp [hpush, hpop])]
    exact effect_mem i.operand s hpush hstore

/-- The accesses of a step leave the memory that it leaves. -/
theorem replay_stepAccesses (s : State) : ∃ m, replay (stepAccesses s) s.mem = some m ∧ Leaves m (step s) := by
  unfold stepAccesses
  obtain ⟨r, hrun, hstep⟩ | ⟨hrun, i, rest, hdecode, hstep⟩ | ⟨hrun, e, hdecode, hstep⟩ := step_cases s
  · rw [hrun, hstep]
    exact ⟨s.mem, rfl, congrArg State.mem (faultOf_left r s)⟩
  · simp only [hrun, hdecode]
    rw [hstep, replay_append, replay_append, replay_of_readsOf (readsOf_fetchAccesses i s), Option.bind_some,
      replay_of_readsOf (readsOf_pointerAccesses i.operand s), Option.bind_some]
    exact replay_dataAccesses i s
  · simp only [hrun, hdecode]
    rw [hstep]
    exact ⟨s.mem, replay_of_readsOf (by simp [ReadsOf]), leaves_raise _ _ _⟩

/-- Settles O18: the fetches and pointer reads leave memory, and the data accesses do what the instruction does. -/
theorem accessesReplay : Obligations.AccessesReplay := by
  intro s
  obtain ⟨m, hreplay, hleaves⟩ := replay_stepAccesses s
  rw [hreplay]
  refine ⟨fun t ht => ?_, fun f hf => ?_⟩
  · rw [ht, Leaves] at hleaves
    rw [hleaves]
  · rw [hf, Leaves] at hleaves
    rw [hleaves]

end Sys2Proof.Proofs

/-! PROOFS. What is pushed comes back: calls, software interrupts and bytes (45_control.md R192; 60_exceptions.md R247; 46_stack.md
R202). -/

namespace Sys2Proof.Proofs

open Sys2Proof.Machine Sys2Proof.Statements

/-- A read of a stack byte after a push. -/
theorem memRead_pushAt {s : State} {m : Memory} (hwf : m.wf = true) (sp sp' v : Byte) :
    memRead (pushAt s m sp v) (stackAddr s.cfg sp') = if sp' = sp then v else memRead m (stackAddr s.cfg sp') := by
  simp only [pushAt, memRead_memWrite hwf, stackAddr_inj]

/-- A push keeps the canonical form. -/
theorem pushAt_wf {s : State} {m : Memory} (hwf : m.wf = true) (sp v : Byte) : (pushAt s m sp v).wf = true :=
  memWrite_wf _ _ hwf

/-- Where an instruction completes that pushes, it had room, as the statements write it. -/
theorem room_of_next {i : Instr} {s t : State} (h : exec i s = .next t) {n : Nat} (hpush : pushCount i.op = n + 1) :
    ¬ (Fatal s ∧ s.sp.toNat ≤ n) := by
  rintro ⟨hfatal, hle⟩
  have hroom := ((exec_eq_next_iff.mp h).1 hfatal).1
  omega

/-- The room that the pushes had is room for as many pops after them. -/
theorem room_to_pop {s u : State} {n : Nat} (hn : n < 255) (h : ¬ (Fatal s ∧ s.sp.toNat ≤ n)) (hcfg : u.cfg = s.cfg)
    (hsp : u.sp = s.sp - BitVec.ofNat 8 (n + 1)) : ¬ (Fatal u ∧ 255 - n ≤ u.sp.toNat) := by
  rintro ⟨hfatal, hle⟩
  have hlt : ¬ s.sp.toNat ≤ n := fun hle => h ⟨by rwa [Fatal, hcfg] at hfatal, hle⟩
  rw [hsp] at hle
  bv_omega

/-- Settles O58: the two stacked bytes are those of the address that RTS adds one to. -/
theorem callThenReturn : Obligations.CallThenReturn := by
  intro w s t u hwf h hsp hcfg hlow hhigh
  have hroom := room_of_next h rfl
  have ht := Host.Outcome.next.inj (h.symm.trans ((jsrResult.2 w s).1 hroom))
  subst ht
  have hone : s.sp - 2 + 1 = s.sp - 1 := by bv_omega
  have htwo : s.sp - 2 + 2 = s.sp := by bv_omega
  have hne : s.sp ≠ s.sp - 1 := by bv_omega
  have hpc : s.pc + 2 + 1 = s.pc + 3 := add_assoc s.pc 2 1
  rw [(rtsResult.2 u).1 (room_to_pop (by decide) hroom hcfg hsp), hsp]
  dsimp only at hlow hhigh ⊢
  rw [hlow, hhigh, hone, htwo]
  simp only [stackAt, memRead_pushAt hwf, memRead_pushAt (pushAt_wf hwf _ _), if_pos, if_neg hne, wordOf_hi_lo, hpc]

/-- The status byte that PHP and BRK push is loaded as the flags it came from, with B set and U kept. -/
theorem loadP_pushedStatus (old p : Status) : loadP old (pByte p ||| 0x30) = { p with b := true, u := old.u } := by
  simp [loadP, pByte, getElem_flagBit]

/-- Settles O59: the three stacked bytes are those of the flags and of the address that RTI goes to. -/
theorem interruptThenReturn : Obligations.InterruptThenReturn := by
  intro s t u hwf h hsp hcfg hstatus hlow hhigh
  have hroom := room_of_next h rfl
  have ht := Host.Outcome.next.inj (h.symm.trans ((brkResult.2 s).1 hroom))
  subst ht
  have hone : s.sp - 3 + 1 = s.sp - 2 := by bv_omega
  have htwo : s.sp - 3 + 2 = s.sp - 1 := by bv_omega
  have hthree : s.sp - 3 + 3 = s.sp := by bv_omega
  have hne : s.sp ≠ s.sp - 1 ∧ s.sp ≠ s.sp - 2 ∧ s.sp - 1 ≠ s.sp - 2 := by bv_omega
  rw [(rtiResult.2 u).1 (room_to_pop (by decide) hroom hcfg hsp), hsp]
  dsimp only at hstatus hlow hhigh ⊢
  rw [hstatus, hlow, hhigh, hone, htwo, hthree]
  simp only [stackAt, memRead_pushAt hwf, memRead_pushAt (pushAt_wf hwf _ _), memRead_pushAt (pushAt_wf (pushAt_wf hwf _ _) _ _),
    if_pos, if_neg hne.1, if_neg hne.2.1, if_neg hne.2.2, wordOf_hi_lo, loadP_pushedStatus]

/-- Settles O60: the pops read the stack bytes of the pushes, the last one first. -/
theorem pushesPopInReverse : Obligations.PushesPopInReverse := by
  intro s b1 b2 hwf h
  obtain ⟨-, -, hresult⟩ := phaPlaResults
  have hroom : ∀ {u : State} {sp bound : Byte}, u.cfg = s.cfg → (sp = bound → s.sp.toNat ≤ 1) → ¬ (Fatal u ∧ sp = bound) :=
    fun hcfg hbound ⟨hfatal, hsp⟩ => h ⟨by rwa [Fatal, hcfg] at hfatal, hbound hsp⟩
  have hone : s.sp - 1 - 1 + 1 = s.sp - 1 := by bv_omega
  have htwo : s.sp - 1 - 1 + 1 + 1 = s.sp := by bv_omega
  have hne : s.sp ≠ s.sp - 1 := by bv_omega
  refine ⟨_, _, _, _, (hresult _).1 ?push, (hresult _).1 ?push', (hresult _).2.2.1 ?pop, ?last, (hresult _).2.2.1 ?pop', ?first, htwo⟩
  case push => exact hroom rfl (by intro hsp; bv_omega)
  case push' | pop | pop' => exact hroom rfl (by dsimp only; intro hsp; bv_omega)
  case last => simp only [stackAt, hone, memRead_pushAt hwf, memRead_pushAt (pushAt_wf hwf _ _), if_pos]
  case first => simp only [stackAt, htwo, memRead_pushAt hwf, memRead_pushAt (pushAt_wf hwf _ _), if_pos, if_neg hne]

end Sys2Proof.Proofs

/-! PROOFS. Flags that instructions do not read (10_state.md R25; 41_alu.md R104). -/

namespace Sys2Proof.Proofs

open Sys2Proof.Machine Sys2Proof.Statements

/-- The flags with other values of those that no condition and no sum reads. -/
def withUnread (p : Status) (i d b u : Bool) : Status := { p with i := i, d := d, b := b, u := u }

/-- A write to a location leaves the flags as they are set before or after it. -/
theorem writeLoc_setP (s : State) (q : Status) (l : Loc) (v : Byte) : (s.setP q).writeLoc l v = (s.writeLoc l v).setP q := by
  cases l <;> rfl

theorem readLoc_setP (s : State) (q : Status) (l : Loc) : (s.setP q).readLoc l = s.readLoc l := by
  cases l <;> rfl

theorem shifted_withUnread (f : Byte → Bool → Shifted) (o : Operand) (s : State) (i d b u : Bool) :
    shifted f o (s.setP (withUnread s.p i d b u)) =
      (shifted f o s).setP (shifted f o (s.setP (withUnread s.p i d b u))).p := by
  have hloc : locOf o (s.setP (withUnread s.p i d b u)) = locOf o s := rfl
  have hpast : (s.setP (withUnread s.p i d b u)).past o = (s.past o).setP (withUnread s.p i d b u) := rfl
  rw [shifted, hloc, readLoc_setP, hpast, writeLoc_setP]
  rfl

/-- Other values of those flags, where no push has them, change only the flags that an instruction comes to. -/
theorem effect_withUnread {op : Op} {o : Operand} {s : State} {i d b u : Bool}
    (hpush : op ∈ [.php, .brk] → pushedStatus (withUnread s.p i d b u) = pushedStatus s.p) :
    effect op o (s.setP (withUnread s.p i d b u)) =
      (effect op o s).setP (effect op o (s.setP (withUnread s.p i d b u))).p := by
  cases op with
  | php | brk =>
    have hbytes := hpush (by decide)
    simp only [effect, pushedBytes, State.setP_p, hbytes, pushedAll]
    rfl
  | asl | lsr | rol | ror =>
    simp only [effect]
    exact shifted_withUnread _ o s i d b u
  | _ => rfl

/-- The pushed status has bits 4 and 5 set whatever the stored B and U. -/
theorem pushedStatus_withUnread (p : Status) (b u : Bool) : pushedStatus (withUnread p p.i p.d b u) = pushedStatus p := by
  ext k hk
  interval_cases k <;> simp [pushedStatus, pByte, withUnread, getElem_flagBit]

/-- An instruction that completes does so whatever the flags: the room on the stack is none of their business. -/
theorem exec_setP_of_next {i : Instr} {s t : State} (h : exec i s = .next t) (q : Status) :
    exec i (s.setP q) = .next (effect i.op i.operand (s.setP q)) :=
  exec_of_room (s := s.setP q) (exec_eq_next_iff.mp h).1

/-! The flags that an instruction comes to from another value of one of those flags: the same, but for that flag where it is not
written. -/

theorem effect_p_withUnused (op : Op) (o : Operand) (s : State) (u : Bool) :
    (effect op o (s.setP (withUnread s.p s.p.i s.p.d s.p.b u))).p = { (effect op o s).p with u := u } := by
  cases op with
  | pha | php | jsr | brk => simp [effect, afterPushes, withUnread]
  | _ => rfl

theorem effect_p_withBreak (op : Op) (o : Operand) (s : State) (b : Bool) :
    (effect op o (s.setP (withUnread s.p s.p.i s.p.d b s.p.u))).p =
      { (effect op o s).p with b := if op ∈ [.plp, .rti] then (effect op o s).p.b else b } := by
  cases op with
  | pha | php | jsr | brk => simp [effect, afterPushes, withUnread]
  | _ => rfl

theorem effect_p_withInterrupt {op : Op} (o : Operand) (s : State) (i : Bool) (h : op ∉ [.php, .brk]) :
    (effect op o (s.setP (withUnread s.p i s.p.d s.p.b s.p.u))).p =
      { (effect op o s).p with i := if op ∈ [.sei, .cli, .plp, .rti] then (effect op o s).p.i else i } := by
  cases op with
  | php | brk => exact absurd (by decide) h
  | pha | jsr => simp [effect, afterPushes, withUnread]
  | _ => rfl

theorem effect_p_withDecimal {op : Op} (o : Operand) (s : State) (d : Bool) (h : op ∈ [.adc, .sbc]) :
    (effect op o (s.setP (withUnread s.p s.p.i d s.p.b s.p.u))).p = { (effect op o s).p with d := d } := by
  cases op with
  | adc | sbc => rfl
  | _ => exact absurd h (by decide)

/-- Settles O55: U is in no condition, no sum and no push. -/
theorem unusedFlagIsNotRead : Obligations.UnusedFlagIsNotRead := by
  intro i s t u h
  refine (exec_setP_of_next h (withUnread s.p s.p.i s.p.d s.p.b u)).trans ?_
  obtain ⟨-, rfl⟩ := exec_eq_next_iff.mp h
  rw [effect_withUnread fun _ => pushedStatus_withUnread s.p s.p.b u, effect_p_withUnused]
  rfl

/-- Settles O56: B is in no condition, no sum and no push, and I only in the pushes of PHP and BRK. -/
theorem breakIsNotReadAndInterruptMasksNothing : Obligations.BreakIsNotReadAndInterruptMasksNothing := by
  refine ⟨fun i s t b h => ?brk, fun i s t x h hop => ?interrupt⟩
  case brk =>
    refine (exec_setP_of_next h (withUnread s.p s.p.i s.p.d b s.p.u)).trans ?_
    obtain ⟨-, rfl⟩ := exec_eq_next_iff.mp h
    rw [effect_withUnread fun _ => pushedStatus_withUnread s.p b s.p.u, effect_p_withBreak]
    rfl
  case interrupt =>
    refine (exec_setP_of_next h (withUnread s.p x s.p.d s.p.b s.p.u)).trans ?_
    obtain ⟨-, rfl⟩ := exec_eq_next_iff.mp h
    rw [effect_withUnread fun hpush => absurd hpush hop, effect_p_withInterrupt _ _ _ hop]
    rfl

/-- Settles O25: ADC and SBC complete from every state, and D is in neither sum. -/
theorem decimalModeIgnored : Obligations.DecimalModeIgnored := by
  intro i s d hop
  have hstack : ∀ op ∈ [Op.adc, .sbc], op ∉ pushingOps ++ poppingOps ∧ op ∉ [Op.php, .brk] := by decide
  obtain ⟨hnot, hstatus⟩ := hstack _ hop
  have h := exec_eq_next_of_not_stack s hnot
  refine ⟨_, h, (exec_setP_of_next h (withUnread s.p s.p.i d s.p.b s.p.u)).trans ?_⟩
  rw [effect_withUnread fun hpush => absurd hpush hstatus, effect_p_withDecimal _ _ _ hop]
  rfl

end Sys2Proof.Proofs
